-- ==== Sys2Proof/Word.lean ====
section
/-! DEFINITION. The words of the block and the shapes of what it packs: bytes, the operand widths of R8, the seven
code spaces of the opcode table, a word of one of them, the 15 header fields of R61 and the three codes VALIDATE yields. -/

namespace Sys2Proof

/-- One byte of the sink, of a result buffer or of a header (R40, R62). -/
abbrev Byte := BitVec 8

/-- A sample rate in Hz: `SR_W` = 32 bits, unsigned (R8, R20). -/
abbrev Rate := BitVec 32

/-- A channel count: `CC_W` = 32 bits, unsigned (R8, R20). -/
abbrev Count := BitVec 32

/-- A payload length in bytes: `PLEN_W` = 32 bits, unsigned (R8, R20). -/
abbrev Len := BitVec 32

/-- The code spaces of spec/opcode_table.json, its "format" column. -/
inductive Format where
  | req99     -- the 99-bit request word (R68)
  | hdr7      -- the 56-bit header (R60)
  | hdr9      -- the 72-bit header with CRC space (R60, R64)
  | sfi4      -- the 4-bit `sampling_frequency_index` code (R110)
  | chc3      -- the 3-bit `channel_configuration` code (R130)
  | sinkPut   -- the three put primitives of the sink (R42 to R44)
  | status2   -- the 2-bit status code of a response (R153)
deriving DecidableEq, Repr

/-- A word of one of the table's code spaces. Only `req99` is a request a host can issue (R68). The rows the table gives
no encoding (a lookup that finds nothing, a put) are presented by the value they act on: log entry 17. -/
inductive TableWord where
  | req99 (bits : BitVec 99)
  | hdr7 (bits : BitVec 56)
  | hdr9 (bits : BitVec 72)
  | sfi4 (code : BitVec 4)
  | chc3 (code : BitVec 3)
  | status2 (code : BitVec 2)
  | rateArg (rate : Rate)
  | countArg (count : Count)
  | put8 (value : BitVec 8)
  | put16 (value : BitVec 16)
  | put32 (value : BitVec 32)
deriving DecidableEq, Repr

/-- The code space a word belongs to. -/
def TableWord.format : TableWord → Format
  | .req99 _ => .req99
  | .hdr7 _ => .hdr7
  | .hdr9 _ => .hdr9
  | .sfi4 _ => .sfi4
  | .chc3 _ => .chc3
  | .status2 _ => .status2
  | .rateArg _ => .sfi4
  | .countArg _ => .chc3
  | .put8 _ => .sinkPut
  | .put16 _ => .sinkPut
  | .put32 _ => .sinkPut

/-- What VALIDATE returns: the two table codes and the 13-bit frame length (R92). -/
structure HeaderCodes where
  sfi : BitVec 4
  chc : BitVec 3
  fl : BitVec 13
deriving DecidableEq, Repr

/-- The 15 consecutive fields of the 56 header bits, in the order of the stream (R61). -/
structure HeaderFields where
  syncword : BitVec 12
  id : BitVec 1
  layer : BitVec 2
  protectionAbsent : BitVec 1
  profile : BitVec 2
  sfi : BitVec 4
  privateBit : BitVec 1
  chc : BitVec 3
  originalCopy : BitVec 1
  home : BitVec 1
  copyrightIdBit : BitVec 1
  copyrightIdStart : BitVec 1
  frameLength : BitVec 13
  bufferFullness : BitVec 11
  rawDataBlocks : BitVec 2
deriving DecidableEq, Repr

end Sys2Proof
end

