-- ==== Sys2Proof/Config.lean ====
section
/-! DEFINITION. The constants of the design (R8, R9) and the values the model fixes where the spec gives none
(log entries 1 and 10). No free value is needed: the spec leaves no result of an operation undefined. -/

namespace Sys2Proof

/-- `CRC_FILL`, the 16 bits in the CRC space of the 9-byte header (R8, R64: value taken `0x0000`; log entry 15). -/
def Config.crcFill : BitVec 16 := 0x0000#16

/-- The largest value the 13-bit `frame_length` field holds (R9, R151). -/
def Config.maxFrameLength : Nat := 8191

/-- Register values right after reset. The spec gives none (R32: "unspecified: holds no value"); DESIGN CHOICE zero,
unsafe, log entry 1. -/
def Config.resetCrcAbs : BitVec 1 := 0#1

/-- As `Config.resetCrcAbs`, for `SRATE`: DESIGN CHOICE, log entry 1. -/
def Config.resetSRate : Rate := 0#32

/-- As `Config.resetCrcAbs`, for `CHCNT`: DESIGN CHOICE, log entry 1. -/
def Config.resetChCnt : Count := 0#32

/-- As `Config.resetCrcAbs`, for `PLEN`: DESIGN CHOICE, log entry 1. -/
def Config.resetPLen : Len := 0#32

/-- Where the cursor of the sink stands that the host attached before reset: DESIGN CHOICE, log entry 10. -/
def Config.startPos : Nat := 0

/-- `SINK_LIMIT` at the start: OPEN per launch and possibly unbounded (R8, R40); DESIGN CHOICE unbounded, log entry 10. -/
def Config.startLimit : Option Nat := none

end Sys2Proof
end

