-- ==== Sys2Proof/Machine/Tables.lean ====
section
/-! DEFINITION. The two constant lookup tables, SFI (R110) and CHC (R130), written once: the syntax check, the decoder
and the operations all use these two functions. `none` is the tables' explicit not-found result (R126, R141). -/

namespace Sys2Proof.Machine

/-- `SFI(rate)` of R110: exact match of the whole operand against the 13 keys. -/
def sfi (rate : Rate) : Option (BitVec 4) :=
  if rate = 96000#32 then some 0#4
  else if rate = 88200#32 then some 1#4
  else if rate = 64000#32 then some 2#4
  else if rate = 48000#32 then some 3#4
  else if rate = 44100#32 then some 4#4
  else if rate = 32000#32 then some 5#4
  else if rate = 24000#32 then some 6#4
  else if rate = 22050#32 then some 7#4
  else if rate = 16000#32 then some 8#4
  else if rate = 12000#32 then some 9#4
  else if rate = 11025#32 then some 10#4
  else if rate = 8000#32 then some 11#4
  else if rate = 7350#32 then some 12#4
  else none

/-- `CHC(count)` of R130: exact match against the 7 keys; 0, 7 and everything from 9 on have no entry. -/
def chc (count : Count) : Option (BitVec 3) :=
  if count = 1#32 then some 1#3
  else if count = 2#32 then some 2#3
  else if count = 3#32 then some 3#3
  else if count = 4#32 then some 4#3
  else if count = 5#32 then some 5#3
  else if count = 6#32 then some 6#3
  else if count = 8#32 then some 7#3
  else none

end Sys2Proof.Machine
end

