-- ==== Sys2Proof/Syntax.lean ====
section
/-! DEFINITION. The instruction set as syntax: one constructor per row of spec/opcode_table.json (40 rows), the code
space of each row, and the two pseudo-operations of R72. The first three constructors are the requests of the block,
the fourth its reserved request; the other 36 rows are the header formats, the table entries, the sink primitives and
the status codes that the requests are made of (log entry 5). -/

namespace Sys2Proof

inductive Instr where
  -- requests, format REQ99 (R68)
  | construct (crcAbsent : BitVec 1) (sampleRate : Rate) (channelCount : Count) (payloadLength : Len)
  | write
  | toBytes
  | reservedOp
  -- header formats (R60, R61, R64), with the three variable fields of the emitted header
  | hdr7 (sfi : BitVec 4) (chc : BitVec 3) (frameLength : BitVec 13)
  | hdr9 (sfi : BitVec 4) (chc : BitVec 3) (frameLength : BitVec 13)
  -- the SamplingFrequencyIndex table (R110 to R125)
  | sfi96000
  | sfi88200
  | sfi64000
  | sfi48000
  | sfi44100
  | sfi32000
  | sfi24000
  | sfi22050
  | sfi16000
  | sfi12000
  | sfi11025
  | sfi8000
  | sfi7350
  | sfiCode13
  | sfiCode14
  | sfiCode15
  | sfiUnsupported (rate : Rate)
  -- the ChannelConfiguration table (R130 to R140)
  | chc1
  | chc2
  | chc3
  | chc4
  | chc5
  | chc6
  | chc8
  | chcCode0
  | chcCount7
  | chcUnsupported (count : Count)
  -- the put primitives of the sink (R42 to R44)
  | putByte (value : BitVec 8)
  | putShort (value : BitVec 16)
  | putInt (value : BitVec 32)
  -- the status codes of a response (R153)
  | statusOk
  | statusUnsupportedParameter
  | statusFrameTooLarge
  | statusNoHeader
deriving DecidableEq, Repr

/-- The code space of an instruction's row, the table's "format" column. -/
def Instr.format : Instr → Format
  | .construct _ _ _ _ => .req99
  | .write => .req99
  | .toBytes => .req99
  | .reservedOp => .req99
  | .hdr7 _ _ _ => .hdr7
  | .hdr9 _ _ _ => .hdr9
  | .sfi96000 => .sfi4
  | .sfi88200 => .sfi4
  | .sfi64000 => .sfi4
  | .sfi48000 => .sfi4
  | .sfi44100 => .sfi4
  | .sfi32000 => .sfi4
  | .sfi24000 => .sfi4
  | .sfi22050 => .sfi4
  | .sfi16000 => .sfi4
  | .sfi12000 => .sfi4
  | .sfi11025 => .sfi4
  | .sfi8000 => .sfi4
  | .sfi7350 => .sfi4
  | .sfiCode13 => .sfi4
  | .sfiCode14 => .sfi4
  | .sfiCode15 => .sfi4
  | .sfiUnsupported _ => .sfi4
  | .chc1 => .chc3
  | .chc2 => .chc3
  | .chc3 => .chc3
  | .chc4 => .chc3
  | .chc5 => .chc3
  | .chc6 => .chc3
  | .chc8 => .chc3
  | .chcCode0 => .chc3
  | .chcCount7 => .chc3
  | .chcUnsupported _ => .chc3
  | .putByte _ => .sinkPut
  | .putShort _ => .sinkPut
  | .putInt _ => .sinkPut
  | .statusOk => .status2
  | .statusUnsupportedParameter => .status2
  | .statusFrameTooLarge => .status2
  | .statusNoHeader => .status2

/-- `HEADER a, r, c, l`: CONSTRUCT then WRITE (R72). -/
def pseudoHeader (a : BitVec 1) (r : Rate) (c : Count) (l : Len) : List Instr :=
  [.construct a r c l, .write]

/-- `HEADERBYTES a, r, c, l`: CONSTRUCT then TOBYTES (R72). -/
def pseudoHeaderBytes (a : BitVec 1) (r : Rate) (c : Count) (l : Len) : List Instr :=
  [.construct a r c l, .toBytes]

end Sys2Proof
end

