-- ==== Sys2Proof/WellFormed.lean ====
section
/-! DEFINITION. Which instruction terms stand for a row of the table: a header's codes must be codes the block emits
(R71), and the two not-found rows carry an operand that indeed has no entry (R124, R140). -/

namespace Sys2Proof

/-- The header fields are codes the block emits, for a header of `size` bytes (R65, R71): an index 0 to 12, a
configuration code 1 to 7, a length that counts the header itself. -/
def emittable (size : Nat) (sfi : BitVec 4) (chc : BitVec 3) (fl : BitVec 13) : Bool :=
  decide (sfi.toNat ≤ 12) && decide (1 ≤ chc.toNat) && decide (size ≤ fl.toNat)

/-- The term stands for a row of the table. CONSTRUCT takes any operand values (R22); only four rows have a check. -/
def Instr.wellFormed : Instr → Bool
  | .hdr7 f c l => emittable 7 f c l
  | .hdr9 f c l => emittable 9 f c l
  | .sfiUnsupported rate => (Machine.sfi rate).isNone
  | .chcUnsupported count => decide (9 ≤ count.toNat)
  | .construct _ _ _ _ => true
  | .write => true
  | .toBytes => true
  | .reservedOp => true
  | .sfi96000 => true
  | .sfi88200 => true
  | .sfi64000 => true
  | .sfi48000 => true
  | .sfi44100 => true
  | .sfi32000 => true
  | .sfi24000 => true
  | .sfi22050 => true
  | .sfi16000 => true
  | .sfi12000 => true
  | .sfi11025 => true
  | .sfi8000 => true
  | .sfi7350 => true
  | .sfiCode13 => true
  | .sfiCode14 => true
  | .sfiCode15 => true
  | .chc1 => true
  | .chc2 => true
  | .chc3 => true
  | .chc4 => true
  | .chc5 => true
  | .chc6 => true
  | .chc8 => true
  | .chcCode0 => true
  | .chcCount7 => true
  | .putByte _ => true
  | .putShort _ => true
  | .putInt _ => true
  | .statusOk => true
  | .statusUnsupportedParameter => true
  | .statusFrameTooLarge => true
  | .statusNoHeader => true

end Sys2Proof
end

