-- ==== Sys2Proof/Decode.lean ====
section
/-! DEFINITION. From words to instructions and back. The decoder reads a word of one of the table's code spaces and
rejects by name; `pack` is PACK of R66, `decodeHeader` is DECODE of R74, and the encoder lays each row out as the
table does. -/

namespace Sys2Proof

/-- Why a word is no row of the table. -/
inductive DecodeError where
  /-- a constant bit of the 56-bit header format differs from R67's pattern -/
  | hdr7Constants
  /-- a constant bit of the 72-bit header format, CRC space included, differs from R67's pattern -/
  | hdr9Constants
deriving DecidableEq, Repr

/-- The (value, width) pairs of R66, in stream order. -/
def packFields (pa : BitVec 1) (sfi : BitVec 4) (chc : BitVec 3) (fl : BitVec 13) : List (Nat × Nat) :=
  [(0xFFF, 12), (0, 1), (0, 2), (pa.toNat, 1), (1, 2), (sfi.toNat, 4), (0, 1), (chc.toNat, 3),
   (0, 1), (0, 1), (0, 1), (0, 1), (fl.toNat, 13), (0x7FF, 11), (0, 2)]

/-- `PACK` of R66: the fields folded left to right into a 56-bit accumulator. -/
def pack (pa : BitVec 1) (sfi : BitVec 4) (chc : BitVec 3) (fl : BitVec 13) : BitVec 56 :=
  (packFields pa sfi chc fl).foldl (fun acc f => acc <<< f.2 ||| BitVec.ofNat 56 f.1) 0#56

/-- `DECODE` of R74: the 15 fields of 56 header bits. A test oracle, no operation of the block (R6). -/
def decodeHeader (h : BitVec 56) : HeaderFields where
  syncword := h.extractLsb' 44 12
  id := h.extractLsb' 43 1
  layer := h.extractLsb' 41 2
  protectionAbsent := h.extractLsb' 40 1
  profile := h.extractLsb' 38 2
  sfi := h.extractLsb' 34 4
  privateBit := h.extractLsb' 33 1
  chc := h.extractLsb' 30 3
  originalCopy := h.extractLsb' 29 1
  home := h.extractLsb' 28 1
  copyrightIdBit := h.extractLsb' 27 1
  copyrightIdStart := h.extractLsb' 26 1
  frameLength := h.extractLsb' 13 13
  bufferFullness := h.extractLsb' 2 11
  rawDataBlocks := h.extractLsb' 0 2

/-- `{b[0], b[1], …, b[6]}` of R74: the header bits of the first seven bytes, most significant byte first. -/
def headerOfBytes (b : List Byte) : BitVec 56 :=
  (b.take 7).foldl (fun acc x => acc <<< 8 ||| x.setWidth 56) 0#56

/-- The constant bits of the 56-bit format and their values (R67). -/
def hdr7Mask : BitVec 56 := 0xFFFFC23C001FFF#56
def hdr7Match : BitVec 56 := 0xFFF14000001FFC#56

/-- The constant bits of the 72-bit format and their values (R67). -/
def hdr9Mask : BitVec 72 := 0xFFFFC23C001FFFFFFF#72
def hdr9Match : BitVec 72 := 0xFFF04000001FFC0000#72

/-- The request of a 99-bit word `op, crcAbsent, sampleRate, channelCount, payloadLength` (R68). The operand bits of
WRITE, TOBYTES and the reserved code are ignored. -/
def decodeRequest (r : BitVec 99) : Instr :=
  match (r.extractLsb' 97 2).toNat with
  | 0 => .construct (r.extractLsb' 96 1) (r.extractLsb' 64 32) (r.extractLsb' 32 32) (r.extractLsb' 0 32)
  | 1 => .write
  | 2 => .toBytes
  | _ => .reservedOp

/-- The 56-bit header row, if the constant bits are right. -/
def decodeHdr7 (h : BitVec 56) : Except DecodeError Instr :=
  if h &&& hdr7Mask = hdr7Match then .ok (.hdr7 (h.extractLsb' 34 4) (h.extractLsb' 30 3) (h.extractLsb' 13 13))
  else .error .hdr7Constants

/-- The 72-bit header row, if the constant bits are right. -/
def decodeHdr9 (h : BitVec 72) : Except DecodeError Instr :=
  if h &&& hdr9Mask = hdr9Match then .ok (.hdr9 (h.extractLsb' 50 4) (h.extractLsb' 46 3) (h.extractLsb' 29 13))
  else .error .hdr9Constants

/-- The row of a `sampling_frequency_index` code: 13 entries and the three codes never emitted (R111 to R125). -/
def sfiRow (code : BitVec 4) : Instr :=
  match code.toNat with
  | 0 => .sfi96000
  | 1 => .sfi88200
  | 2 => .sfi64000
  | 3 => .sfi48000
  | 4 => .sfi44100
  | 5 => .sfi32000
  | 6 => .sfi24000
  | 7 => .sfi22050
  | 8 => .sfi16000
  | 9 => .sfi12000
  | 10 => .sfi11025
  | 11 => .sfi8000
  | 12 => .sfi7350
  | 13 => .sfiCode13
  | 14 => .sfiCode14
  | _ => .sfiCode15

/-- The row of a `channel_configuration` code: 7 entries and code 0 (R131 to R138). -/
def chcRow (code : BitVec 3) : Instr :=
  match code.toNat with
  | 0 => .chcCode0
  | 1 => .chc1
  | 2 => .chc2
  | 3 => .chc3
  | 4 => .chc4
  | 5 => .chc5
  | 6 => .chc6
  | _ => .chc8

/-- The row of a status code (R153). -/
def statusRow (code : BitVec 2) : Instr :=
  match code.toNat with
  | 0 => .statusOk
  | 1 => .statusUnsupportedParameter
  | 2 => .statusFrameTooLarge
  | _ => .statusNoHeader

/-- The row that answers for a rate: its entry, or the not-found row (R110, R124). -/
def rateRow (rate : Rate) : Instr :=
  match Machine.sfi rate with
  | some code => sfiRow code
  | none => .sfiUnsupported rate

/-- The row that answers for a count: its entry, or the not-found row of its kind (R130, R138 to R140). -/
def countRow (count : Count) : Instr :=
  match Machine.chc count with
  | some code => chcRow code
  | none => if count = 0#32 then .chcCode0 else if count = 7#32 then .chcCount7 else .chcUnsupported count

/-- The decoder: total on every word. -/
def decode : TableWord → Except DecodeError Instr
  | .req99 r => .ok (decodeRequest r)
  | .hdr7 h => decodeHdr7 h
  | .hdr9 h => decodeHdr9 h
  | .sfi4 code => .ok (sfiRow code)
  | .chc3 code => .ok (chcRow code)
  | .status2 code => .ok (statusRow code)
  | .rateArg rate => .ok (rateRow rate)
  | .countArg count => .ok (countRow count)
  | .put8 v => .ok (.putByte v)
  | .put16 v => .ok (.putShort v)
  | .put32 v => .ok (.putInt v)

/-- A request word with the given operation code and operand bits (R68). -/
def requestWord (op : BitVec 2) (operands : BitVec 97) : TableWord :=
  .req99 (op ++ operands)

/-- The word of an instruction. WRITE, TOBYTES and the reserved code carry zero operand bits, as 95_test_vectors.md
shows them. The encoder of a header row is PACK (R66), with CRC_FILL after it in the 72-bit format (R64). -/
def encode : Instr → TableWord
  | .construct a r c l => requestWord 0#2 (a ++ r ++ c ++ l)
  | .write => requestWord 1#2 0#97
  | .toBytes => requestWord 2#2 0#97
  | .reservedOp => requestWord 3#2 0#97
  | .hdr7 f c l => .hdr7 (pack 1#1 f c l)
  | .hdr9 f c l => .hdr9 (pack 0#1 f c l ++ Config.crcFill)
  | .sfi96000 => .sfi4 0#4
  | .sfi88200 => .sfi4 1#4
  | .sfi64000 => .sfi4 2#4
  | .sfi48000 => .sfi4 3#4
  | .sfi44100 => .sfi4 4#4
  | .sfi32000 => .sfi4 5#4
  | .sfi24000 => .sfi4 6#4
  | .sfi22050 => .sfi4 7#4
  | .sfi16000 => .sfi4 8#4
  | .sfi12000 => .sfi4 9#4
  | .sfi11025 => .sfi4 10#4
  | .sfi8000 => .sfi4 11#4
  | .sfi7350 => .sfi4 12#4
  | .sfiCode13 => .sfi4 13#4
  | .sfiCode14 => .sfi4 14#4
  | .sfiCode15 => .sfi4 15#4
  | .sfiUnsupported rate => .rateArg rate
  | .chc1 => .chc3 1#3
  | .chc2 => .chc3 2#3
  | .chc3 => .chc3 3#3
  | .chc4 => .chc3 4#3
  | .chc5 => .chc3 5#3
  | .chc6 => .chc3 6#3
  | .chc8 => .chc3 7#3
  | .chcCode0 => .chc3 0#3
  | .chcCount7 => .countArg 7#32
  | .chcUnsupported count => .countArg count
  | .putByte v => .put8 v
  | .putShort v => .put16 v
  | .putInt v => .put32 v
  | .statusOk => .status2 0#2
  | .statusUnsupportedParameter => .status2 1#2
  | .statusFrameTooLarge => .status2 2#2
  | .statusNoHeader => .status2 3#2

/-- The bits `w` as a word of `n` bits, if every bit above them is 0. -/
def bitsOf (n w : Nat) : Option (BitVec n) :=
  if w < 2 ^ n then some (BitVec.ofNat n w) else none

/-- The word that `nbits` bits of the opcode table stand for (log entry 16). A request is 99 bits, 104 in whole bytes.
The codes of three tables all fit one byte: eight bits are read as the widest of them, the 4-bit index; the exact
widths 4, 3 and 2 tell them apart. The put rows have no encoding: their widths are those of the table's field list. -/
def tableWordOf (nbits w : Nat) : Option TableWord :=
  match nbits with
  | 99 => (bitsOf 99 w).map .req99
  | 104 => (bitsOf 99 w).map .req99
  | 56 => (bitsOf 56 w).map .hdr7
  | 72 => (bitsOf 72 w).map .hdr9
  | 8 => (bitsOf 4 w).map .sfi4
  | 4 => (bitsOf 4 w).map .sfi4
  | 3 => (bitsOf 3 w).map .chc3
  | 2 => (bitsOf 2 w).map .status2
  | 16 => some (.put8 (BitVec.ofNat 8 w))
  | 24 => some (.put16 (BitVec.ofNat 16 w))
  | 32 => (bitsOf 32 w).map .put32
  | _ => none

/-- The instruction the decoder reads from `nbits` bits `w`, numbered as the table numbers them. -/
def decodeTableWord (nbits w : Nat) : Option Instr :=
  match tableWordOf nbits w with
  | some t => (decode t).toOption
  | none => none

end Sys2Proof
end

