-- ==== Sys2Proof/Machine/State.lean ====
section
/-! DEFINITION. The state as plain data: the four operand registers and HVALID (R20, R23), the sink (R40), and two
fields of the model's own, the host's moves still to come (log entry 3) and what operations have returned (log entry 2);
the outcomes that stop a run; the state right after reset (R32). -/

namespace Sys2Proof.Machine

/-- The bytes of the sink, one canonical list: addresses strictly rising. An unlisted address holds no value. -/
abbrev Mem := List Host.Cell

/-- The byte sink of R40: its bytes, its write cursor, and one past the last byte that may be written (`none`:
unbounded). The host's, but WRITE changes it. -/
structure Sink where
  mem : Mem
  pos : Nat
  limit : Option Nat
deriving DecidableEq, Repr

/-- The status of a response (R153). -/
inductive Status where
  | ok
  | unsupportedParameter
  | frameTooLarge
  | noHeader
deriving DecidableEq, Repr

/-- The response of a request (R69): its status, the result buffer (empty for "no buffer"), and the buffer's read
position. `buf_len` is the buffer's length. -/
structure Response where
  status : Status
  buf : List Byte
  rdpos : Nat
deriving DecidableEq, Repr

/-- What an operation hands to whoever asked for it: a response, or the code a table lookup returns (R11, R24). -/
inductive Returned where
  | response (r : Response)
  | sfiCode (code : BitVec 4)
  | chcCode (code : BitVec 3)
deriving DecidableEq, Repr

/-- What the host may do between operations besides issuing a request (R51, R180, R186; log entry 18). -/
inductive HostAct where
  /-- append bytes at the cursor: the payload of an access unit (R184) -/
  | append (bytes : List Byte)
  /-- overwrite one byte of the sink, as R189 allows for a CRC -/
  | poke (addr : Nat) (value : Byte)
  /-- put the cursor somewhere -/
  | seek (pos : Nat)
  /-- attach a fresh, empty sink with its cursor at 0 and the given SINK_LIMIT (R8) -/
  | freshSink (limit : Option Nat)
  /-- assert the block's one reset (R180) -/
  | reset
deriving DecidableEq, Repr

/-- One move of the host: a word handed to the block, or an act of its own. A host issues only `req99` words (R68);
the other words let one row of the table be stepped alone (log entry 5). -/
inductive HostMove where
  | word (w : TableWord)
  | act (a : HostAct)
deriving DecidableEq, Repr

structure State where
  /-- `x[0]` `CRCABS` (R20) -/
  crcAbs : BitVec 1
  /-- `x[1]` `SRATE` (R20) -/
  sRate : Rate
  /-- `x[2]` `CHCNT` (R20) -/
  chCnt : Count
  /-- `x[3]` `PLEN` (R20) -/
  pLen : Len
  /-- `HVALID` (R23) -/
  hvalid : Bool
  /-- the attached sink (R40) -/
  sink : Sink
  /-- the model's own: what operations have returned, newest first; no operation reads it (R24, log entry 2) -/
  returned : List Returned
  /-- the model's own: the host's moves still to come, next first (R194, log entry 3) -/
  pending : List HostMove
deriving DecidableEq, Repr

/-- Why the machine stops with a fault. Both are safe: the model stops where the spec describes no step. -/
inductive Fault where
  /-- raised by `step` for a header word whose constant bits match no row of the table (R67); safe; log entry 21 -/
  | undecodable (e : DecodeError)
  /-- raised by a host's append or poke at an address the sink does not have (R40); safe; log entry 18 -/
  | hostOutsideSink
deriving DecidableEq, Repr

/-- Why there is no step. All are safe: the model stops. -/
inductive Refusal where
  /-- raised by an arm of `exec` for an instruction without a meaning (no arm of this model does); safe -/
  | notModelled (mnemonic : String)
  /-- raised by `execReservedOp`: a request with `op` = `0b11` (R70, R159); safe -/
  | reservedOp
  /-- raised by WRITE, the header rows and the puts when the sink lacks room (R42 to R45, R159); safe -/
  | sinkNoRoom
deriving DecidableEq, Repr

/-- What fetching the host's next move gives. -/
inductive Fetched where
  | idle
  | host (a : HostAct) (s : State)
  | run (i : Instr) (s : State)
  | undecodable (e : DecodeError)
deriving DecidableEq, Repr

/-- The machine right after reset (R32, R180): HVALID is 0. The registers' values are log entry 1, the attached sink
is log entry 10; nothing has been returned and the host has announced no move. -/
def State.reset : State where
  crcAbs := Config.resetCrcAbs
  sRate := Config.resetSRate
  chCnt := Config.resetChCnt
  pLen := Config.resetPLen
  hvalid := false
  sink := { mem := [], pos := Config.startPos, limit := Config.startLimit }
  returned := []
  pending := []

end Sys2Proof.Machine
end

