-- ==== Sys2Proof/Machine/Flags.lean ====
section
/-! DEFINITION. The one flag of the block, HVALID (R23, R26: no condition codes, no arithmetic flags), and the one
comparison its arithmetic makes (R100). -/

namespace Sys2Proof.Machine

/-- `HVALID` = 1: a header has been constructed since reset (R23). -/
def headerValid (s : State) : Bool := s.hvalid

/-- Set `HVALID`; nothing but reset clears it (R23). -/
def State.setHvalid (s : State) : State := { s with hvalid := true }

/-- The comparison `fl > 8191` of R92 and R100. -/
def frameTooLong (fl : Nat) : Bool := decide (Config.maxFrameLength < fl)

end Sys2Proof.Machine
end

