-- ==== Sys2Proof/Machine/Ops.lean ====
section
/-! DEFINITION. The named operations over the sink's memory, the sink, the registers and the response; taking a failure
(`raise`, R154) as one operation; and fetching the host's next move. -/

namespace Sys2Proof.Machine

/-- What an address that the memory does not list reads as: no value, since nothing has written it (log entry 11). -/
def Mem.unlisted : Option Byte := none

/-- The byte at an address. Only claims read the sink; no operation of the block does (R49). -/
def Mem.read (m : Mem) (addr : Nat) : Option Byte :=
  match m with
  | [] => Mem.unlisted
  | c :: cs => if c.1 = addr then some c.2 else Mem.read cs addr

/-- Store one byte, keeping the addresses strictly rising. -/
def Mem.write (m : Mem) (addr : Nat) (b : Byte) : Mem :=
  match m with
  | [] => [(addr, b)]
  | c :: cs =>
    if addr < c.1 then (addr, b) :: c :: cs
    else if addr = c.1 then (addr, b) :: cs
    else c :: Mem.write cs addr b

/-- The canonical form: addresses strictly rising. Every listed entry holds a value, so none equals `Mem.unlisted`. -/
def Mem.wf (m : Mem) : Bool :=
  match m with
  | [] => true
  | [_] => true
  | c :: d :: cs => decide (c.1 < d.1) && Mem.wf (d :: cs)

/-- Store bytes at rising addresses. -/
def Mem.writeBytes (m : Mem) (addr : Nat) : List Byte → Mem
  | [] => m
  | b :: bs => Mem.writeBytes (m.write addr b) (addr + 1) bs

/-- The `n` bytes of `v` in big-endian order: byte `k` is `v[8(n-k)-1 : 8(n-k-1)]` (R41). -/
def bigEndian (n : Nat) {w : Nat} (v : BitVec w) : List Byte :=
  (List.range n).map (fun k => v.extractLsb' (8 * (n - 1 - k)) 8)

/-- `MemWrite(addr, n, v)` of R41. -/
def memWrite (m : Mem) (addr n : Nat) {w : Nat} (v : BitVec w) : Mem :=
  m.writeBytes addr (bigEndian n v)

/-- The sink has room for `n` more bytes: `SINK.pos + n <= SINK.limit` (R42 to R45). -/
def Sink.hasRoom (k : Sink) (n : Nat) : Bool :=
  match k.limit with
  | none => true
  | some l => decide (k.pos + n ≤ l)

/-- The address exists in the sink: it lies below `SINK.limit` (R40). -/
def Sink.hasAddr (k : Sink) (addr : Nat) : Bool :=
  match k.limit with
  | none => true
  | some l => decide (addr < l)

/-- Append bytes at the cursor and advance it (R103: cursor-relative with post-increment). -/
def Sink.append (k : Sink) (bs : List Byte) : Sink :=
  { k with mem := k.mem.writeBytes k.pos bs, pos := k.pos + bs.length }

/-- The effect of `PutByte(v)`, room given (R42). -/
def Sink.putByte (k : Sink) (v : BitVec 8) : Sink :=
  { k with mem := memWrite k.mem k.pos 1 v, pos := k.pos + 1 }

/-- The effect of `PutShort(v)`, room given (R43). -/
def Sink.putShort (k : Sink) (v : BitVec 16) : Sink :=
  { k with mem := memWrite k.mem k.pos 2 v, pos := k.pos + 2 }

/-- The effect of `PutInt(v)`, room given (R44). -/
def Sink.putInt (k : Sink) (v : BitVec 32) : Sink :=
  { k with mem := memWrite k.mem k.pos 4 v, pos := k.pos + 4 }

/-- Load all four operand registers at once (R21, R90). -/
def State.setOperands (s : State) (a : BitVec 1) (r : Rate) (c : Count) (l : Len) : State :=
  { s with crcAbs := a, sRate := r, chCnt := c, pLen := l }

/-- Replace the attached sink. -/
def State.setSink (s : State) (k : Sink) : State :=
  { s with sink := k }

/-- Hand a value to whoever asked for the operation (R24: a value returned, not state an operation can read). -/
def State.give (s : State) (r : Returned) : State :=
  { s with returned := r :: s.returned }

/-- `respond(status, buf)` of R11 and R69; the read position of a buffer is 0. -/
def State.respond (s : State) (st : Status) (buf : List Byte) : State :=
  s.give (.response { status := st, buf := buf, rdpos := 0 })

/-- `raise` (R154), the block's trap entry: the operation ends with the status in its response and no buffer; nothing is
saved and no state is written. There is no return operation (R157): the next request is served as any other. -/
def raise (st : Status) (s : State) : Host.Outcome State Fault Refusal :=
  .next (s.respond st [])

/-- Run an effect on the sink that stores `n` bytes; without room there is no step (R42 to R45, R159). -/
def withRoom (n : Nat) (s : State) (k' : Sink) : Host.Outcome State Fault Refusal :=
  if s.sink.hasRoom n then .next (s.setSink k') else .refused .sinkNoRoom

/-- The block's reset (R180): HVALID cleared, the registers at their reset values (log entry 1), the sink untouched. -/
def resetBlock (s : State) : State :=
  { s with crcAbs := Config.resetCrcAbs, sRate := Config.resetSRate, chCnt := Config.resetChCnt,
           pLen := Config.resetPLen, hvalid := false }

/-- What an act of the host does (R51, R180, R184, R189). -/
def hostAct (a : HostAct) (s : State) : Host.Outcome State Fault Refusal :=
  match a with
  | .append bs => if s.sink.hasRoom bs.length then .next (s.setSink (s.sink.append bs)) else .fault .hostOutsideSink
  | .poke addr b =>
    if s.sink.hasAddr addr then .next (s.setSink { s.sink with mem := s.sink.mem.write addr b })
    else .fault .hostOutsideSink
  | .seek pos => .next (s.setSink { s.sink with pos := pos })
  | .freshSink limit => .next (s.setSink { mem := [], pos := 0, limit := limit })
  | .reset => .next (resetBlock s)

/-- Take the host's next move off the list, decoding it if it is a word (R47: requests are served in order). -/
def fetch (s : State) : Fetched :=
  match s.pending with
  | [] => .idle
  | .act a :: rest => .host a { s with pending := rest }
  | .word w :: rest =>
    match decode w with
    | .ok i => .run i { s with pending := rest }
    | .error e => .undecodable e

/-- The block with no request before it: nothing happens (R30: no pending event; log entry 12). -/
def idleStep (s : State) : Host.Outcome State Fault Refusal := .next s

/-- The host's moves with the given bits of the opcode table put first (log entry 3). -/
def queueWord (nbits w : Nat) (p : List HostMove) : List HostMove :=
  match tableWordOf nbits w with
  | some t => .word t :: p
  | none => p

end Sys2Proof.Machine
end

