-- ==== Sys2Proof/Machine/Operands.lean ====
section
/-! DEFINITION. What the operations compute from the operand registers: the header size and frame length (R91), the
checks of VALIDATE (R92), the three words handed to the sink (R63), and the byte sequence of a header (R95). -/

namespace Sys2Proof.Machine

/-- `HDRSIZE` (R91). -/
def hdrSize (crcAbs : BitVec 1) : Nat := if crcAbs = 1#1 then 7 else 9

/-- `FRAMELEN`, a natural number: the sum does not wrap (R91). -/
def frameLen (crcAbs : BitVec 1) (pLen : Len) : Nat := pLen.toNat + hdrSize crcAbs

/-- `VALIDATE` (R92): the first check that fails names the failure. -/
def validate (s : State) : Except Status HeaderCodes :=
  if headerValid s = false then .error .noHeader
  else
    match sfi s.sRate with
    | none => .error .unsupportedParameter
    | some f =>
      match chc s.chCnt with
      | none => .error .unsupportedParameter
      | some c =>
        if frameTooLong (frameLen s.crcAbs s.pLen) then .error .frameTooLarge
        else .ok { sfi := f, chc := c, fl := BitVec.ofNat 13 (frameLen s.crcAbs s.pLen) }

/-- `W16 = 0xFFF0 | CRCABS` (R63). -/
def w16 (pa : BitVec 1) : BitVec 16 := 0xFFF0#16 ||| pa.setWidth 16

/-- `W32 = (1 << 30) | (sfi << 26) | (chc << 22) | (frame_length << 5) | 0x1F` (R63). -/
def w32 (f : BitVec 4) (c : BitVec 3) (fl : BitVec 13) : BitVec 32 :=
  1#32 <<< 30 ||| f.setWidth 32 <<< 26 ||| c.setWidth 32 <<< 22 ||| fl.setWidth 32 <<< 5 ||| 0x1F#32

/-- `B6 = 0xFC` (R63). -/
def b6 : BitVec 8 := 0xFC#8

/-- The puts of a header, in the order of R93: a short, an int, a byte and, when a CRC is announced, a short of
`CRC_FILL` (R94). -/
def emitHeader (pa : BitVec 1) (f : BitVec 4) (c : BitVec 3) (fl : BitVec 13) (k : Sink) : Sink :=
  let k7 := ((k.putShort (w16 pa)).putInt (w32 f c fl)).putByte b6
  if pa = 0#1 then k7.putShort Config.crcFill else k7

/-- `ENCODE` (R95): the 7 bytes of PACK and, when a CRC is announced, the two bytes of `CRC_FILL`. -/
def headerBytes (pa : BitVec 1) (f : BitVec 4) (c : BitVec 3) (fl : BitVec 13) : List Byte :=
  bigEndian 7 (pack pa f c fl) ++ (if pa = 0#1 then bigEndian 2 Config.crcFill else [])

/-- Emit a header from given codes, as one row of the table. A code the block never emits makes the operation fail with
`UNSUPPORTED_PARAMETER` (R71; log entry 8); the header goes to the sink as the puts of R93. -/
def emitRow (pa : BitVec 1) (f : BitVec 4) (c : BitVec 3) (fl : BitVec 13) (s : State) :
    Host.Outcome State Fault Refusal :=
  if emittable (hdrSize pa) f c fl then withRoom (hdrSize pa) s (emitHeader pa f c fl s.sink)
  else raise .unsupportedParameter s

/-- The lookup `SFI(rate)` run alone: its code is handed back, or it raises (R110; log entry 6). -/
def lookupRate (rate : Rate) (s : State) : Host.Outcome State Fault Refusal :=
  match sfi rate with
  | some code => .next (s.give (.sfiCode code))
  | none => raise .unsupportedParameter s

/-- The lookup `CHC(count)` run alone: its code is handed back, or it raises (R130; log entry 6). -/
def lookupCount (count : Count) (s : State) : Host.Outcome State Fault Refusal :=
  match chc count with
  | some code => .next (s.give (.chcCode code))
  | none => raise .unsupportedParameter s

end Sys2Proof.Machine
end

