-- ==== Sys2Proof/Machine/ChcTable.lean ====
section
/-! DEFINITION. The rows of the ChannelConfiguration table: each is the lookup CHC at that row's key (R130 to R140). -/

namespace Sys2Proof.Machine

/-- CHC_1 (R131): the lookup at 1 channel, code 1. -/
def execChc1 (s : State) : Host.Outcome State Fault Refusal := lookupCount 1#32 s

/-- CHC_2 (R132): the lookup at 2 channels, code 2. -/
def execChc2 (s : State) : Host.Outcome State Fault Refusal := lookupCount 2#32 s

/-- CHC_3 (R133): the lookup at 3 channels, code 3. -/
def execChc3 (s : State) : Host.Outcome State Fault Refusal := lookupCount 3#32 s

/-- CHC_4 (R134): the lookup at 4 channels, code 4. -/
def execChc4 (s : State) : Host.Outcome State Fault Refusal := lookupCount 4#32 s

/-- CHC_5 (R135): the lookup at 5 channels, code 5. -/
def execChc5 (s : State) : Host.Outcome State Fault Refusal := lookupCount 5#32 s

/-- CHC_6 (R136): the lookup at 6 channels, code 6. -/
def execChc6 (s : State) : Host.Outcome State Fault Refusal := lookupCount 6#32 s

/-- CHC_8 (R137): the lookup at 8 channels, code 7. -/
def execChc8 (s : State) : Host.Outcome State Fault Refusal := lookupCount 8#32 s

/-- CHC_CODE_0 (R138): no count has code 0; the count 0 raises `UNSUPPORTED_PARAMETER` (log entry 7). -/
def execChcCode0 (s : State) : Host.Outcome State Fault Refusal := lookupCount 0#32 s

/-- CHC_COUNT_7 (R139): the lookup at the count 7 raises. -/
def execChcCount7 (s : State) : Host.Outcome State Fault Refusal := lookupCount 7#32 s

/-- CHC_UNSUPPORTED (R140): the lookup at a count of 9 or more raises. -/
def execChcUnsupported (count : Count) (s : State) : Host.Outcome State Fault Refusal := lookupCount count s

end Sys2Proof.Machine
end

