-- ==== Sys2Proof/Machine/HeaderFormats.lean ====
section
/-! DEFINITION. The two header formats as operations of their own: handing the format's bits to the sink (R60, R63,
R64). Each is the emission step of WRITE with the codes given (log entries 5, 8, 9). -/

namespace Sys2Proof.Machine

/-- HDR7 (R61, R63): put the 56 bits with `protection_absent` = 1. -/
def execHdr7 (f : BitVec 4) (c : BitVec 3) (fl : BitVec 13) (s : State) : Host.Outcome State Fault Refusal :=
  emitRow 1#1 f c fl s

/-- HDR9 (R64): put the 56 bits with `protection_absent` = 0, then CRC_FILL. -/
def execHdr9 (f : BitVec 4) (c : BitVec 3) (fl : BitVec 13) (s : State) : Host.Outcome State Fault Refusal :=
  emitRow 0#1 f c fl s

end Sys2Proof.Machine
end

