-- ==== Sys2Proof/Machine/HeaderOps.lean ====
section
/-! DEFINITION. The three requests of the block, CONSTRUCT (R90), WRITE (R93) and TOBYTES (R96), and the reserved
request (R70). -/

namespace Sys2Proof.Machine

/-- CONSTRUCT (R90): load the four operand registers, set HVALID, respond OK. It cannot fail. -/
def execConstruct (a : BitVec 1) (r : Rate) (c : Count) (l : Len) (s : State) : Host.Outcome State Fault Refusal :=
  .next (((s.setOperands a r c l).setHvalid).respond .ok [])

/-- WRITE (R93): validate, require room for the whole header, put it, respond OK. -/
def execWrite (s : State) : Host.Outcome State Fault Refusal :=
  match validate s with
  | .error st => raise st s
  | .ok v =>
    if s.sink.hasRoom (hdrSize s.crcAbs) then
      .next ((s.setSink (emitHeader s.crcAbs v.sfi v.chc v.fl s.sink)).respond .ok [])
    else .refused .sinkNoRoom

/-- TOBYTES (R96): validate, respond OK with the header's bytes in a fresh buffer. -/
def execToBytes (s : State) : Host.Outcome State Fault Refusal :=
  match validate s with
  | .error st => raise st s
  | .ok v => .next (s.respond .ok (headerBytes s.crcAbs v.sfi v.chc v.fl))

/-- `op` = `0b11` (R70, R159): the block has no step for it. -/
def execReservedOp (_s : State) : Host.Outcome State Fault Refusal := .refused .reservedOp

end Sys2Proof.Machine
end

