-- ==== Sys2Proof/Machine/SfiTable.lean ====
section
/-! DEFINITION. The rows of the SamplingFrequencyIndex table: each is the lookup SFI at that row's key (R110 to R125). -/

namespace Sys2Proof.Machine

/-- SFI_96000 (R111): the lookup at 96000 Hz, code 0. -/
def execSfi96000 (s : State) : Host.Outcome State Fault Refusal := lookupRate 96000#32 s

/-- SFI_88200 (R112): the lookup at 88200 Hz, code 1. -/
def execSfi88200 (s : State) : Host.Outcome State Fault Refusal := lookupRate 88200#32 s

/-- SFI_64000 (R113): the lookup at 64000 Hz, code 2. -/
def execSfi64000 (s : State) : Host.Outcome State Fault Refusal := lookupRate 64000#32 s

/-- SFI_48000 (R114): the lookup at 48000 Hz, code 3. -/
def execSfi48000 (s : State) : Host.Outcome State Fault Refusal := lookupRate 48000#32 s

/-- SFI_44100 (R115): the lookup at 44100 Hz, code 4. -/
def execSfi44100 (s : State) : Host.Outcome State Fault Refusal := lookupRate 44100#32 s

/-- SFI_32000 (R116): the lookup at 32000 Hz, code 5. -/
def execSfi32000 (s : State) : Host.Outcome State Fault Refusal := lookupRate 32000#32 s

/-- SFI_24000 (R117): the lookup at 24000 Hz, code 6. -/
def execSfi24000 (s : State) : Host.Outcome State Fault Refusal := lookupRate 24000#32 s

/-- SFI_22050 (R118): the lookup at 22050 Hz, code 7. -/
def execSfi22050 (s : State) : Host.Outcome State Fault Refusal := lookupRate 22050#32 s

/-- SFI_16000 (R119): the lookup at 16000 Hz, code 8. -/
def execSfi16000 (s : State) : Host.Outcome State Fault Refusal := lookupRate 16000#32 s

/-- SFI_12000 (R120): the lookup at 12000 Hz, code 9. -/
def execSfi12000 (s : State) : Host.Outcome State Fault Refusal := lookupRate 12000#32 s

/-- SFI_11025 (R121): the lookup at 11025 Hz, code 10. -/
def execSfi11025 (s : State) : Host.Outcome State Fault Refusal := lookupRate 11025#32 s

/-- SFI_8000 (R122): the lookup at 8000 Hz, code 11. -/
def execSfi8000 (s : State) : Host.Outcome State Fault Refusal := lookupRate 8000#32 s

/-- SFI_7350 (R123): the lookup at 7350 Hz, code 12. -/
def execSfi7350 (s : State) : Host.Outcome State Fault Refusal := lookupRate 7350#32 s

/-- SFI_CODE_13 (R125, R71; reserved): no rate has this code; what would need it fails with `UNSUPPORTED_PARAMETER`
(log entry 7). -/
def execSfiCode13 (s : State) : Host.Outcome State Fault Refusal := raise .unsupportedParameter s

/-- SFI_CODE_14 (R125, R71; reserved): no rate has this code; what would need it fails with `UNSUPPORTED_PARAMETER`
(log entry 7). -/
def execSfiCode14 (s : State) : Host.Outcome State Fault Refusal := raise .unsupportedParameter s

/-- SFI_CODE_15 (R125, R71; reserved for explicit-frequency signaling): no rate has this code; what would need it fails with `UNSUPPORTED_PARAMETER`
(log entry 7). -/
def execSfiCode15 (s : State) : Host.Outcome State Fault Refusal := raise .unsupportedParameter s

/-- SFI_UNSUPPORTED (R124): the lookup at a rate that is not a key raises. -/
def execSfiUnsupported (rate : Rate) (s : State) : Host.Outcome State Fault Refusal := lookupRate rate s

end Sys2Proof.Machine
end

