-- ==== Sys2Proof/Machine/SinkPuts.lean ====
section
/-! DEFINITION. The three put primitives of the sink as operations of their own (R42 to R44; log entry 5). -/

namespace Sys2Proof.Machine

/-- PUTBYTE (R42). -/
def execPutByte (v : BitVec 8) (s : State) : Host.Outcome State Fault Refusal := withRoom 1 s (s.sink.putByte v)

/-- PUTSHORT (R43). -/
def execPutShort (v : BitVec 16) (s : State) : Host.Outcome State Fault Refusal := withRoom 2 s (s.sink.putShort v)

/-- PUTINT (R44). -/
def execPutInt (v : BitVec 32) (s : State) : Host.Outcome State Fault Refusal := withRoom 4 s (s.sink.putInt v)

end Sys2Proof.Machine
end

