-- ==== Sys2Proof/Machine/StatusCodes.lean ====
section
/-! DEFINITION. The four status codes as operations of their own: the response step that ends an operation (R153,
R154; log entry 5). -/

namespace Sys2Proof.Machine

/-- STATUS_OK (R153): `respond(OK)` without a buffer. -/
def execStatusOk (s : State) : Host.Outcome State Fault Refusal := .next (s.respond .ok [])

/-- STATUS_UNSUPPORTED_PARAMETER (R150, R154): the failure is raised. -/
def execStatusUnsupportedParameter (s : State) : Host.Outcome State Fault Refusal := raise .unsupportedParameter s

/-- STATUS_FRAME_TOO_LARGE (R151, R154): the failure is raised. -/
def execStatusFrameTooLarge (s : State) : Host.Outcome State Fault Refusal := raise .frameTooLarge s

/-- STATUS_NO_HEADER (R152, R154): the failure is raised. -/
def execStatusNoHeader (s : State) : Host.Outcome State Fault Refusal := raise .noHeader s

end Sys2Proof.Machine
end

