-- ==== Sys2Proof/Machine/Dispatch.lean ====
section
/-! DEFINITION. Which meaning each row of the table has: one arm per constructor. -/

namespace Sys2Proof.Machine

def exec (i : Instr) (s : State) : Host.Outcome State Fault Refusal :=
  match i with
  | .construct a r c l => Sys2Proof.Machine.execConstruct a r c l s
  | .write => Sys2Proof.Machine.execWrite s
  | .toBytes => Sys2Proof.Machine.execToBytes s
  | .reservedOp => Sys2Proof.Machine.execReservedOp s
  | .hdr7 f c fl => Sys2Proof.Machine.execHdr7 f c fl s
  | .hdr9 f c fl => Sys2Proof.Machine.execHdr9 f c fl s
  | .sfi96000 => Sys2Proof.Machine.execSfi96000 s
  | .sfi88200 => Sys2Proof.Machine.execSfi88200 s
  | .sfi64000 => Sys2Proof.Machine.execSfi64000 s
  | .sfi48000 => Sys2Proof.Machine.execSfi48000 s
  | .sfi44100 => Sys2Proof.Machine.execSfi44100 s
  | .sfi32000 => Sys2Proof.Machine.execSfi32000 s
  | .sfi24000 => Sys2Proof.Machine.execSfi24000 s
  | .sfi22050 => Sys2Proof.Machine.execSfi22050 s
  | .sfi16000 => Sys2Proof.Machine.execSfi16000 s
  | .sfi12000 => Sys2Proof.Machine.execSfi12000 s
  | .sfi11025 => Sys2Proof.Machine.execSfi11025 s
  | .sfi8000 => Sys2Proof.Machine.execSfi8000 s
  | .sfi7350 => Sys2Proof.Machine.execSfi7350 s
  | .sfiCode13 => Sys2Proof.Machine.execSfiCode13 s
  | .sfiCode14 => Sys2Proof.Machine.execSfiCode14 s
  | .sfiCode15 => Sys2Proof.Machine.execSfiCode15 s
  | .sfiUnsupported rate => Sys2Proof.Machine.execSfiUnsupported rate s
  | .chc1 => Sys2Proof.Machine.execChc1 s
  | .chc2 => Sys2Proof.Machine.execChc2 s
  | .chc3 => Sys2Proof.Machine.execChc3 s
  | .chc4 => Sys2Proof.Machine.execChc4 s
  | .chc5 => Sys2Proof.Machine.execChc5 s
  | .chc6 => Sys2Proof.Machine.execChc6 s
  | .chc8 => Sys2Proof.Machine.execChc8 s
  | .chcCode0 => Sys2Proof.Machine.execChcCode0 s
  | .chcCount7 => Sys2Proof.Machine.execChcCount7 s
  | .chcUnsupported count => Sys2Proof.Machine.execChcUnsupported count s
  | .putByte v => Sys2Proof.Machine.execPutByte v s
  | .putShort v => Sys2Proof.Machine.execPutShort v s
  | .putInt v => Sys2Proof.Machine.execPutInt v s
  | .statusOk => Sys2Proof.Machine.execStatusOk s
  | .statusUnsupportedParameter => Sys2Proof.Machine.execStatusUnsupportedParameter s
  | .statusFrameTooLarge => Sys2Proof.Machine.execStatusFrameTooLarge s
  | .statusNoHeader => Sys2Proof.Machine.execStatusNoHeader s

end Sys2Proof.Machine
end

