-- ==== Sys2Proof/Machine/Step.lean ====
section
/-! DEFINITION. One step: the host's next move is taken; a word is decoded and run, an act is performed, and with no
move left the block is idle (R47, R194). -/

namespace Sys2Proof.Machine

def step (s : State) : Host.Outcome State Fault Refusal :=
  match fetch s with
  | .idle => idleStep s
  | .host a t => hostAct a t
  | .run i t => exec i t
  | .undecodable e => .fault (.undecodable e)

/-- `s` with the instruction of the given bits as the host's next move (log entry 3). -/
def State.withFetchWord (s : State) (nbits w : Nat) : State :=
  { s with pending := queueWord nbits w s.pending }

end Sys2Proof.Machine
end

