-- ==== Sys2Proof/Safety.lean ====
section
/-! DEFINITION. What claims call safe: a step that neither faults nor is refused, a host that issues requests only, and
the invariant of the machine, that the sink's memory is in canonical form and that everything returned is something the
block can return (R67, R69, R71, R125, R138). -/

namespace Sys2Proof

open Machine

/-- The outcome is a next state. -/
def Completes (o : Host.Outcome State Fault Refusal) : Prop := ∃ t, o = .next t

/-- The next step of the machine neither faults nor is refused. -/
def SafeStep (s : State) : Prop := Completes (step s)

/-- The registers and the flag are the same in both states (R20, R23). -/
def SameRegisters (s t : State) : Prop :=
  t.crcAbs = s.crcAbs ∧ t.sRate = s.sRate ∧ t.chCnt = s.chCnt ∧ t.pLen = s.pLen ∧ t.hvalid = s.hvalid

/-- Every byte of the sink outside the `n` bytes from `p` on reads as before (R48). -/
def SameMemOutside (p n : Nat) (s t : State) : Prop :=
  ∀ x, x < p ∨ p + n ≤ x → t.sink.mem.read x = s.sink.mem.read x

/-- The sink has room for `n` more bytes: `SINK.pos + n <= SINK.limit`, or the sink is unbounded (R45). -/
def RoomFor (n : Nat) (k : Sink) : Prop := ∀ l, k.limit = some l → k.pos + n ≤ l

/-- The registers hold a constructed header that can be encoded with the codes `v`: the four checks of R92 pass. -/
def CanEncode (s : State) (v : HeaderCodes) : Prop :=
  s.hvalid = true ∧ sfi s.sRate = some v.sfi ∧ chc s.chCnt = some v.chc
    ∧ frameLen s.crcAbs s.pLen ≤ 8191 ∧ v.fl = BitVec.ofNat 13 (frameLen s.crcAbs s.pLen)

/-- The move is one a host of the block has: an act of its own, or a request word (R68). -/
def realMove : HostMove → Bool
  | .word w => decide (w.format = .req99)
  | .act _ => true

/-- Every move still to come is one a host of the block has: no table row is stepped alone (log entry 5). -/
def RequestsOnly (s : State) : Prop := ∀ m ∈ s.pending, realMove m = true

/-- Bytes that are one header of the block: the constant bits of R67, a length that agrees with `protection_absent`
(R60), codes the block emits (R71), and CRC_FILL in the CRC space (R64). -/
def isHeader (buf : List Byte) : Bool :=
  let h := headerOfBytes buf
  let d := decodeHeader h
  decide (h &&& 0xFFFEC23C001FFF#56 = 0xFFF04000001FFC#56) && decide (buf.length = hdrSize d.protectionAbsent)
    && emittable buf.length d.sfi d.chc d.frameLength
    && decide (buf.drop 7 = if d.protectionAbsent = 0#1 then bigEndian 2 Config.crcFill else [])

/-- What the block can return: a response whose buffer starts at read position 0 and is empty or, with status OK, one
header (R69, R96); an index code 0 to 12 (R125); a configuration code other than 0 (R138). -/
def returnable : Returned → Bool
  | .response r => decide (r.rdpos = 0) && (decide (r.buf = []) || (decide (r.status = .ok) && isHeader r.buf))
  | .sfiCode code => decide (code.toNat ≤ 12)
  | .chcCode code => decide (code ≠ 0#3)

/-- The invariant every step keeps. -/
def MachineInv (s : State) : Prop := s.sink.mem.wf = true ∧ ∀ r ∈ s.returned, returnable r = true

end Sys2Proof
end

