-- ==== Sys2Proof/Certificates/Slice0/Obligations.lean ====
section
/-! DEFINITION. The statements for the provers: encodings, each operation's effect and frame, where operations fail or
stop, and the invariant every step keeps. -/

open Sys2Proof Sys2Proof.Machine

/-! ### Decoding and encoding -/

/-- R68: the 2-bit `op` names the operation, CONSTRUCT's four operands are read from their places, and the operand bits
of the other codes are ignored. -/
def Obligations.RequestWordsDecode : Prop :=
  (∀ (a : BitVec 1) (r : Rate) (c : Count) (l : Len),
    decode (.req99 (0b00#2 ++ a ++ r ++ c ++ l)) = .ok (.construct a r c l))
  ∧ (∀ ignored : BitVec 97, decode (.req99 (0b01#2 ++ ignored)) = .ok .write)
  ∧ (∀ ignored : BitVec 97, decode (.req99 (0b10#2 ++ ignored)) = .ok .toBytes)
  ∧ (∀ ignored : BitVec 97, decode (.req99 (0b11#2 ++ ignored)) = .ok .reservedOp)

/-- Decode and encode agree for every well-formed instruction, with every operand at every value. The words of the rows
without an encoding in the spec (the puts, the not-found rows) are the model's own presentation, log entry 17. -/
def Obligations.DecodeOfEncodeIsTheInstruction : Prop :=
  ∀ i : Instr, i.wellFormed = true → decode (encode i) = .ok i

/-- The other direction, in the code spaces whose words have one meaning each: a decoded word is what the encoder writes
for the instruction it was read as. The words of the put space are no encoding of the spec but the model's own
presentation, log entry 17. -/
def Obligations.EncodeOfDecodeIsTheWord : Prop :=
  ∀ (w : TableWord) (i : Instr), decode w = .ok i →
    ((∃ h, w = .hdr7 h) ∨ (∃ h, w = .hdr9 h) ∨ (∃ c, w = .sfi4 c) ∨ (∃ c, w = .chc3 c) ∨ (∃ c, w = .status2 c)
      ∨ w.format = .sinkPut) → encode i = w

/-- A few words written out bit by bit from the spec's encodings (P1, V5, V36 of 95_test_vectors.md, R115, R137, R153)
decode to the instructions they stand for. The last clause, that a header word with a wrong constant bit is rejected, is
the model's choice, log entry 21: the block decodes no headers (R6). -/
def Obligations.WrittenOutWordsDecode : Prop :=
  decode (.req99 0x10000AC440000000200000032#99) = .ok (.construct 1#1 44100#32 2#32 50#32)
  ∧ decode (.req99 0x2000000000000000000000000#99) = .ok .write
  ∧ decode (.req99 0x4000000000000000000000000#99) = .ok .toBytes
  ∧ decode (.hdr7 0xFFF150800D7FFC#56) = .ok (.hdr7 4#4 2#3 107#13)
  ∧ decode (.hdr9 0xFFF050800DBFFC0000#72) = .ok (.hdr9 4#4 2#3 109#13)
  ∧ decode (.sfi4 0b0100#4) = .ok .sfi44100
  ∧ decode (.chc3 0b111#3) = .ok .chc8
  ∧ decode (.status2 0b11#2) = .ok .statusNoHeader
  ∧ decode (.hdr7 0xFFF158800D7FFD#56) = .error .hdr7Constants

/-- R63 and R66: PACK is the three words W16, W32, B6 side by side, and each word is the concatenation R63 gives. -/
def Obligations.PackIsTheThreeWords : Prop :=
  ∀ (pa : BitVec 1) (f : BitVec 4) (c : BitVec 3) (fl : BitVec 13),
    pack pa f c fl = w16 pa ++ w32 f c fl ++ b6
    ∧ w16 pa = 0xFFF#12 ++ 0#1 ++ 0b00#2 ++ pa
    ∧ w32 f c fl = 0b01#2 ++ f ++ 0#1 ++ c ++ 0#1 ++ 0#1 ++ 0#1 ++ 0#1 ++ fl ++ 0b11111#5
    ∧ b6 = 0b111111#6 ++ 0b00#2

/-- R62: the bytes of a header, one by one, and the two zero bytes of the 9-byte format. -/
def Obligations.HeaderBytesFollowTheByteTable : Prop :=
  ∀ (pa : BitVec 1) (f : BitVec 4) (c : BitVec 3) (fl : BitVec 13),
    headerBytes pa f c fl =
      [0xFF#8, if pa = 1#1 then 0xF1#8 else 0xF0#8,
       0x40#8 + 4#8 * f.setWidth 8 + (c.extractLsb' 2 1).setWidth 8,
       64#8 * (c.extractLsb' 0 2).setWidth 8 + (fl.extractLsb' 11 2).setWidth 8,
       fl.extractLsb' 3 8,
       32#8 * (fl.extractLsb' 0 3).setWidth 8 + 0x1F#8,
       0xFC#8] ++ (if pa = 1#1 then [] else [0x00#8, 0x00#8])

/-- R67: the constant bits of every emitted header, of the 7-byte format and of the 9-byte format. -/
def Obligations.EmittedBitsMatchTheMasks : Prop :=
  ∀ (pa : BitVec 1) (f : BitVec 4) (c : BitVec 3) (fl : BitVec 13),
    pack pa f c fl &&& 0xFFFEC23C001FFF#56 = 0xFFF04000001FFC#56
    ∧ pack 1#1 f c fl &&& 0xFFFFC23C001FFF#56 = 0xFFF14000001FFC#56
    ∧ (pack 0#1 f c fl ++ Config.crcFill) &&& 0xFFFFC23C001FFFFFFF#72 = 0xFFF04000001FFC0000#72

/-- R74: DECODE of the first seven bytes of a header gives back every field. -/
def Obligations.DecodeOfHeaderBytesGivesTheFields : Prop :=
  ∀ (pa : BitVec 1) (f : BitVec 4) (c : BitVec 3) (fl : BitVec 13),
    decodeHeader (headerOfBytes (headerBytes pa f c fl)) =
      { syncword := 0xFFF#12, id := 0#1, layer := 0#2, protectionAbsent := pa, profile := 1#2, sfi := f,
        privateBit := 0#1, chc := c, originalCopy := 0#1, home := 0#1, copyrightIdBit := 0#1, copyrightIdStart := 0#1,
        frameLength := fl, bufferFullness := 0x7FF#11, rawDataBlocks := 0#2 }

/-! ### The tables -/

/-- R111 to R117: the first seven entries of SFI, and byte 2 of a stereo header with their codes. -/
def Obligations.SfiEntriesFrom96000To24000 : Prop :=
  (sfi 96000#32 = some 0#4 ∧ sfi 88200#32 = some 1#4 ∧ sfi 64000#32 = some 2#4 ∧ sfi 48000#32 = some 3#4
    ∧ sfi 44100#32 = some 4#4 ∧ sfi 32000#32 = some 5#4 ∧ sfi 24000#32 = some 6#4)
  ∧ (∀ (pa : BitVec 1) (fl : BitVec 13),
    (headerBytes pa 0#4 2#3 fl)[2]? = some 0x40#8 ∧ (headerBytes pa 1#4 2#3 fl)[2]? = some 0x44#8
    ∧ (headerBytes pa 2#4 2#3 fl)[2]? = some 0x48#8 ∧ (headerBytes pa 3#4 2#3 fl)[2]? = some 0x4C#8
    ∧ (headerBytes pa 4#4 2#3 fl)[2]? = some 0x50#8 ∧ (headerBytes pa 5#4 2#3 fl)[2]? = some 0x54#8
    ∧ (headerBytes pa 6#4 2#3 fl)[2]? = some 0x58#8)

/-- R118 to R123: the last six entries of SFI, as above. -/
def Obligations.SfiEntriesFrom22050To7350 : Prop :=
  (sfi 22050#32 = some 7#4 ∧ sfi 16000#32 = some 8#4 ∧ sfi 12000#32 = some 9#4 ∧ sfi 11025#32 = some 10#4
    ∧ sfi 8000#32 = some 11#4 ∧ sfi 7350#32 = some 12#4)
  ∧ (∀ (pa : BitVec 1) (fl : BitVec 13),
    (headerBytes pa 7#4 2#3 fl)[2]? = some 0x5C#8 ∧ (headerBytes pa 8#4 2#3 fl)[2]? = some 0x60#8
    ∧ (headerBytes pa 9#4 2#3 fl)[2]? = some 0x64#8 ∧ (headerBytes pa 10#4 2#3 fl)[2]? = some 0x68#8
    ∧ (headerBytes pa 11#4 2#3 fl)[2]? = some 0x6C#8 ∧ (headerBytes pa 12#4 2#3 fl)[2]? = some 0x70#8)

/-- The 13 entry rows of SFI, run alone, hand back their codes and change nothing else (that a row runs alone and where
its code goes is the model's choice, log entries 5 and 6). -/
def Obligations.SfiRowsHandBackTheirCodes : Prop :=
  ∀ s : State,
    exec .sfi96000 s = .next (s.give (.sfiCode 0#4)) ∧ exec .sfi88200 s = .next (s.give (.sfiCode 1#4))
    ∧ exec .sfi64000 s = .next (s.give (.sfiCode 2#4)) ∧ exec .sfi48000 s = .next (s.give (.sfiCode 3#4))
    ∧ exec .sfi44100 s = .next (s.give (.sfiCode 4#4)) ∧ exec .sfi32000 s = .next (s.give (.sfiCode 5#4))
    ∧ exec .sfi24000 s = .next (s.give (.sfiCode 6#4)) ∧ exec .sfi22050 s = .next (s.give (.sfiCode 7#4))
    ∧ exec .sfi16000 s = .next (s.give (.sfiCode 8#4)) ∧ exec .sfi12000 s = .next (s.give (.sfiCode 9#4))
    ∧ exec .sfi11025 s = .next (s.give (.sfiCode 10#4)) ∧ exec .sfi8000 s = .next (s.give (.sfiCode 11#4))
    ∧ exec .sfi7350 s = .next (s.give (.sfiCode 12#4))

/-- R124: a rate that is none of the 13 keys has no code, and an operation that looks it up fails with
`UNSUPPORTED_PARAMETER`: no default or nearest code is used. -/
def Obligations.UnsupportedRateRaises : Prop :=
  ∀ rate : Rate,
    rate.toNat ∉ [96000, 88200, 64000, 48000, 44100, 32000, 24000, 22050, 16000, 12000, 11025, 8000, 7350] →
    sfi rate = none
    ∧ ∀ s : State, s.hvalid = true → s.sRate = rate →
      exec .write s = .next (s.respond .unsupportedParameter [])
      ∧ exec .toBytes s = .next (s.respond .unsupportedParameter [])

/-- R125: no rate has the codes 13, 14, 15. -/
def Obligations.NeverEmittedIndexCodes : Prop :=
  ∀ rate : Rate, sfi rate ≠ some 13#4 ∧ sfi rate ≠ some 14#4 ∧ sfi rate ≠ some 15#4

/-- The rows of the two tables that no input reaches or that find nothing, run alone, end in the failure of R71, R124,
R138 to R140, and change nothing else (that such a row runs alone is the model's choice, log entries 5 and 7). -/
def Obligations.RowsWithoutAnEntryRaise : Prop :=
  ∀ s : State,
    (exec .sfiCode13 s = .next (s.respond .unsupportedParameter [])
      ∧ exec .sfiCode14 s = .next (s.respond .unsupportedParameter [])
      ∧ exec .sfiCode15 s = .next (s.respond .unsupportedParameter [])
      ∧ exec .chcCode0 s = .next (s.respond .unsupportedParameter [])
      ∧ exec .chcCount7 s = .next (s.respond .unsupportedParameter []))
    ∧ (∀ rate : Rate,
      rate.toNat ∉ [96000, 88200, 64000, 48000, 44100, 32000, 24000, 22050, 16000, 12000, 11025, 8000, 7350] →
      exec (.sfiUnsupported rate) s = .next (s.respond .unsupportedParameter []))
    ∧ (∀ count : Count, 9 ≤ count.toNat →
      exec (.chcUnsupported count) s = .next (s.respond .unsupportedParameter []))

/-- R126: SFI is injective on its keys, onto 0 to 12, and its codes fall as the rates rise. -/
def Obligations.SfiIsInjectiveOntoAndDecreasing : Prop :=
  (∀ (r q : Rate) (c : BitVec 4), sfi r = some c → sfi q = some c → r = q)
  ∧ (∀ c : BitVec 4, (∃ r, sfi r = some c) ↔ c.toNat ≤ 12)
  ∧ (∀ (r q : Rate) (c d : BitVec 4), sfi r = some c → sfi q = some d → r.toNat < q.toNat → d.toNat < c.toNat)

/-- R131 to R137: the entries of CHC, and bytes 2 and 3 of a header at 48000 Hz with a frame length below 2048. -/
def Obligations.ChcEntriesReturnTheirCodes : Prop :=
  (chc 1#32 = some 1#3 ∧ chc 2#32 = some 2#3 ∧ chc 3#32 = some 3#3 ∧ chc 4#32 = some 4#3 ∧ chc 5#32 = some 5#3
    ∧ chc 6#32 = some 6#3 ∧ chc 8#32 = some 7#3)
  ∧ (∀ (pa : BitVec 1) (fl : BitVec 13), fl.toNat < 2048 →
    ((headerBytes pa 3#4 1#3 fl).drop 2).take 2 = [0x4C#8, 0x40#8]
    ∧ ((headerBytes pa 3#4 2#3 fl).drop 2).take 2 = [0x4C#8, 0x80#8]
    ∧ ((headerBytes pa 3#4 3#3 fl).drop 2).take 2 = [0x4C#8, 0xC0#8]
    ∧ ((headerBytes pa 3#4 4#3 fl).drop 2).take 2 = [0x4D#8, 0x00#8]
    ∧ ((headerBytes pa 3#4 5#3 fl).drop 2).take 2 = [0x4D#8, 0x40#8]
    ∧ ((headerBytes pa 3#4 6#3 fl).drop 2).take 2 = [0x4D#8, 0x80#8]
    ∧ ((headerBytes pa 3#4 7#3 fl).drop 2).take 2 = [0x4D#8, 0xC0#8])

/-- The 7 entry rows of CHC, run alone, hand back their codes and change nothing else (log entries 5 and 6). -/
def Obligations.ChcRowsHandBackTheirCodes : Prop :=
  ∀ s : State,
    exec .chc1 s = .next (s.give (.chcCode 1#3)) ∧ exec .chc2 s = .next (s.give (.chcCode 2#3))
    ∧ exec .chc3 s = .next (s.give (.chcCode 3#3)) ∧ exec .chc4 s = .next (s.give (.chcCode 4#3))
    ∧ exec .chc5 s = .next (s.give (.chcCode 5#3)) ∧ exec .chc6 s = .next (s.give (.chcCode 6#3))
    ∧ exec .chc8 s = .next (s.give (.chcCode 7#3))

/-- R138 to R140: the counts 0, 7 (decision D9 of the spec) and everything from 9 on have no code, and an operation that
looks one up fails with `UNSUPPORTED_PARAMETER`; no count has code 0. -/
def Obligations.UnsupportedCountsRaise : Prop :=
  (∀ count : Count, count.toNat = 0 ∨ count.toNat = 7 ∨ 9 ≤ count.toNat →
    chc count = none
    ∧ ∀ s : State, s.hvalid = true → s.chCnt = count →
      exec .write s = .next (s.respond .unsupportedParameter [])
      ∧ exec .toBytes s = .next (s.respond .unsupportedParameter []))
  ∧ (∀ count : Count, chc count ≠ some 0#3)

/-- R141: CHC is injective on its keys, onto 1 to 7, the identity on 1 to 6, and 7 at the count 8. -/
def Obligations.ChcIsInjectiveAndOnto : Prop :=
  (∀ (n m : Count) (c : BitVec 3), chc n = some c → chc m = some c → n = m)
  ∧ (∀ c : BitVec 3, (∃ n, chc n = some c) ↔ 1 ≤ c.toNat)
  ∧ (∀ n : Count, 1 ≤ n.toNat → n.toNat ≤ 6 → chc n = some (BitVec.ofNat 3 n.toNat))
  ∧ chc 8#32 = some 7#3

/-! ### Requests -/

/-- R90: CONSTRUCT loads the four registers, sets HVALID, answers OK, and leaves the sink, whatever the values. -/
def Obligations.ConstructLoadsTheRegisters : Prop :=
  ∀ (a : BitVec 1) (r : Rate) (c : Count) (l : Len) (s : State),
    exec (.construct a r c l) s =
      .next { crcAbs := a, sRate := r, chCnt := c, pLen := l, hvalid := true, sink := s.sink,
              returned := .response { status := .ok, buf := [], rdpos := 0 } :: s.returned, pending := s.pending }

/-- R91: HDRSIZE, and FRAMELEN as an exact sum. -/
def Obligations.FrameLengthIsTheExactSum : Prop :=
  hdrSize 1#1 = 7 ∧ hdrSize 0#1 = 9
  ∧ ∀ l : Len, frameLen 1#1 l = l.toNat + 7 ∧ frameLen 0#1 l = l.toNat + 9

/-- R93, R95, R48: a WRITE of an encodable header with room answers OK, appends exactly ENCODE's bytes at the cursor,
advances it by HDRSIZE, and changes nothing else. -/
def Obligations.WriteAppendsTheHeader : Prop :=
  ∀ (s : State) (v : HeaderCodes), CanEncode s v → RoomFor (hdrSize s.crcAbs) s.sink →
    ∃ t, exec .write s = .next t
      ∧ (∀ k, k < hdrSize s.crcAbs →
          t.sink.mem.read (s.sink.pos + k) = (headerBytes s.crcAbs v.sfi v.chc v.fl)[k]?)
      ∧ SameMemOutside s.sink.pos (hdrSize s.crcAbs) s t
      ∧ t.sink.pos = s.sink.pos + hdrSize s.crcAbs ∧ t.sink.limit = s.sink.limit ∧ SameRegisters s t
      ∧ t.returned = .response { status := .ok, buf := [], rdpos := 0 } :: s.returned ∧ t.pending = s.pending

/-- R96: TOBYTES of an encodable header answers OK with ENCODE's bytes, HDRSIZE of them, read position 0, and changes
nothing else; it needs no room in the sink. The bytes are those a WRITE puts into a fresh sink of exactly that size.
Otherwise it fails as a WRITE does, without a buffer. -/
def Obligations.ToBytesReturnsTheHeader : Prop :=
  (∀ (s : State) (v : HeaderCodes), CanEncode s v →
    exec .toBytes s = .next (s.respond .ok (headerBytes s.crcAbs v.sfi v.chc v.fl))
    ∧ (headerBytes s.crcAbs v.sfi v.chc v.fl).length = hdrSize s.crcAbs
    ∧ ∃ t, exec .write { s with sink := { mem := [], pos := 0, limit := some (hdrSize s.crcAbs) } } = .next t
      ∧ t.sink.pos = hdrSize s.crcAbs
      ∧ ∀ k, t.sink.mem.read k = (headerBytes s.crcAbs v.sfi v.chc v.fl)[k]?)
  ∧ (∀ s : State, (¬ ∃ v, CanEncode s v) → ∃ st, st ≠ Status.ok
    ∧ exec .toBytes s = .next (s.respond st []) ∧ exec .write s = .next (s.respond st []))

/-- R97: WRITE (given room) and TOBYTES answer the same status; when it is OK the bytes WRITE appends are those of the
buffer and the cursor advances by its length. -/
def Obligations.WriteAndToBytesAgree : Prop :=
  ∀ s : State, RoomFor (hdrSize s.crcAbs) s.sink →
    ∃ t u st buf, exec .write s = .next t ∧ exec .toBytes s = .next u
      ∧ t.returned = .response { status := st, buf := [], rdpos := 0 } :: s.returned
      ∧ u.returned = .response { status := st, buf := buf, rdpos := 0 } :: s.returned
      ∧ (st = .ok → t.sink.pos = s.sink.pos + buf.length
          ∧ ∀ k, k < buf.length → t.sink.mem.read (s.sink.pos + k) = buf[k]?)

/-- R98: what is emitted depends on the registers alone. Two states with the same registers give the same TOBYTES
response, and, with room, WRITEs that append the same number of bytes, byte for byte the same. -/
def Obligations.EmissionDependsOnTheRegistersAlone : Prop :=
  ∀ s t : State, SameRegisters s t →
    (∃ r, exec .toBytes s = .next (s.give r) ∧ exec .toBytes t = .next (t.give r))
    ∧ (RoomFor (hdrSize s.crcAbs) s.sink → RoomFor (hdrSize t.crcAbs) t.sink →
        ∃ n s' t', exec .write s = .next s' ∧ exec .write t = .next t'
          ∧ s'.sink.pos = s.sink.pos + n ∧ t'.sink.pos = t.sink.pos + n
          ∧ ∀ k, k < n → s'.sink.mem.read (s.sink.pos + k) = t'.sink.mem.read (t.sink.pos + k))

/-- R99: from any state, HEADER a, R, C, L with a supported rate, a supported count, a length that fits and room succeeds,
and DECODE of the seven bytes then at the old cursor gives every field. -/
def Obligations.HeaderDecodesBack : Prop :=
  ∀ (a : BitVec 1) (r : Rate) (c : Count) (l : Len) (f : BitVec 4) (g : BitVec 3) (s : State),
    sfi r = some f → chc c = some g → l.toNat ≤ 8191 - hdrSize a → RoomFor (hdrSize a) s.sink →
    ∃ t u bytes, exec (.construct a r c l) s = .next t ∧ exec .write t = .next u
      ∧ u.returned = .response { status := .ok, buf := [], rdpos := 0 } :: t.returned
      ∧ List.length bytes = 7 ∧ (∀ k, k < 7 → u.sink.mem.read (s.sink.pos + k) = bytes[k]?)
      ∧ decodeHeader (headerOfBytes bytes) =
        { syncword := 0xFFF#12, id := 0#1, layer := 0#2, protectionAbsent := a, profile := 1#2, sfi := f,
          privateBit := 0#1, chc := g, originalCopy := 0#1, home := 0#1, copyrightIdBit := 0#1,
          copyrightIdStart := 0#1, frameLength := BitVec.ofNat 13 (l.toNat + hdrSize a), bufferFullness := 0x7FF#11,
          rawDataBlocks := 0#2 }
      ∧ (BitVec.ofNat 13 (l.toNat + hdrSize a)).toNat = l.toNat + hdrSize a

/-- R31, R49: a second WRITE without a new CONSTRUCT appends the same bytes again, after the first copy, which stays; both
answer OK. -/
def Obligations.SecondWriteAppendsTheSameBytes : Prop :=
  ∀ (s : State) (v : HeaderCodes), CanEncode s v → RoomFor (2 * hdrSize s.crcAbs) s.sink →
    ∃ t u, exec .write s = .next t ∧ exec .write t = .next u
      ∧ t.returned = .response { status := .ok, buf := [], rdpos := 0 } :: s.returned
      ∧ u.returned = .response { status := .ok, buf := [], rdpos := 0 } :: t.returned
      ∧ u.sink.pos = s.sink.pos + 2 * hdrSize s.crcAbs
      ∧ ∀ k, k < hdrSize s.crcAbs →
          u.sink.mem.read (s.sink.pos + k) = t.sink.mem.read (s.sink.pos + k)
          ∧ u.sink.mem.read (s.sink.pos + hdrSize s.crcAbs + k) = t.sink.mem.read (s.sink.pos + k)

/-- R93 as a sequence of the table's rows: on an encodable header with room the lookup rows of the two operands return
the codes, the header row of the CRC flag emits, the row STATUS_OK responds, and emission then response is WRITE. -/
def Obligations.WriteIsItsRowsInSequence : Prop :=
  ∀ (s : State) (v : HeaderCodes), CanEncode s v → RoomFor (hdrSize s.crcAbs) s.sink →
    exec (rateRow s.sRate) s = .next (s.give (.sfiCode v.sfi))
    ∧ exec (countRow s.chCnt) s = .next (s.give (.chcCode v.chc))
    ∧ ∃ t u, exec (if s.crcAbs = 1#1 then .hdr7 v.sfi v.chc v.fl else .hdr9 v.sfi v.chc v.fl) s = .next t
      ∧ exec .statusOk t = .next u ∧ exec .write s = .next u

/-- R69: each request that is served answers once, with read position 0, and only a TOBYTES that answers OK carries a
buffer, of HDRSIZE bytes. -/
def Obligations.EachRequestAnswersOnce : Prop :=
  ∀ (i : Instr) (s t : State), exec i s = .next t → i.format = .req99 →
    ∃ r, t.returned = .response r :: s.returned ∧ r.rdpos = 0
      ∧ (r.buf = [] ∧ ¬ (i = .toBytes ∧ r.status = .ok)
        ∨ r.buf.length = hdrSize s.crcAbs ∧ i = .toBytes ∧ r.status = .ok)

/-! ### Failures and refusals -/

/-- R150: with a header constructed, a rate or a count without an entry makes WRITE and TOBYTES fail with
`UNSUPPORTED_PARAMETER`, the state otherwise as it was; CONSTRUCT never fails. -/
def Obligations.UnsupportedParameterFails : Prop :=
  (∀ s : State, s.hvalid = true → sfi s.sRate = none ∨ chc s.chCnt = none →
    exec .write s = .next (s.respond .unsupportedParameter [])
    ∧ exec .toBytes s = .next (s.respond .unsupportedParameter []))
  ∧ (∀ (a : BitVec 1) (r : Rate) (c : Count) (l : Len) (s : State), ∃ t, exec (.construct a r c l) s = .next t
    ∧ t.returned = .response { status := .ok, buf := [], rdpos := 0 } :: s.returned)

/-- R151: with supported operands a frame above 8191 bytes makes WRITE and TOBYTES fail with `FRAME_TOO_LARGE`, the state
otherwise as it was; up to 8191 TOBYTES, and WRITE with room, answer OK. -/
def Obligations.FrameTooLargeFails : Prop :=
  ∀ (s : State) (f : BitVec 4) (c : BitVec 3), s.hvalid = true → sfi s.sRate = some f → chc s.chCnt = some c →
    (8191 < s.pLen.toNat + (if s.crcAbs = 1#1 then 7 else 9) →
      exec .write s = .next (s.respond .frameTooLarge [])
      ∧ exec .toBytes s = .next (s.respond .frameTooLarge []))
    ∧ (s.pLen.toNat + (if s.crcAbs = 1#1 then 7 else 9) ≤ 8191 →
      (∃ buf, exec .toBytes s = .next (s.respond .ok buf))
      ∧ (RoomFor (if s.crcAbs = 1#1 then 7 else 9) s.sink →
        ∃ t, exec .write s = .next t
          ∧ t.returned = .response { status := .ok, buf := [], rdpos := 0 } :: s.returned))

/-- R23, R152, R181: while HVALID is 0, WRITE and TOBYTES answer `NO_HEADER` and nothing else changes; only CONSTRUCT
sets the flag, and a step clears it only by a reset of the host. -/
def Obligations.NoHeaderUntilConstruct : Prop :=
  State.reset.hvalid = false
  ∧ (∀ s : State, s.hvalid = false → exec .write s = .next (s.respond .noHeader [])
    ∧ exec .toBytes s = .next (s.respond .noHeader []))
  ∧ (∀ (a : BitVec 1) (r : Rate) (c : Count) (l : Len) (s : State), ∃ t, exec (.construct a r c l) s = .next t
    ∧ t.hvalid = true)
  ∧ (∀ (i : Instr) (s t : State), exec i s = .next t → s.hvalid = false → t.hvalid = true →
    ∃ a r c l, i = .construct a r c l)
  ∧ (∀ s t : State, step s = .next t → s.hvalid = true → t.hvalid = false →
    ∃ rest, s.pending = .act .reset :: rest)

/-- R156: the priority when several causes apply: `NO_HEADER`, then `UNSUPPORTED_PARAMETER`, then `FRAME_TOO_LARGE`.
The order is the spec's own decision D6; U14 advises other claims to rest on "fails" alone. -/
def Obligations.FailurePriority : Prop :=
  ∀ (s : State) (i : Instr), i = .write ∨ i = .toBytes →
    exec i s = .next (s.respond .noHeader []) ∧ s.hvalid = false
    ∨ exec i s = .next (s.respond .unsupportedParameter []) ∧ s.hvalid = true
      ∧ (sfi s.sRate = none ∨ chc s.chCnt = none)
    ∨ exec i s = .next (s.respond .frameTooLarge []) ∧ s.hvalid = true ∧ sfi s.sRate ≠ none ∧ chc s.chCnt ≠ none
      ∧ 8191 < frameLen s.crcAbs s.pLen
    ∨ ∃ v, CanEncode s v

/-- R154: a failed operation, whichever it is, writes nothing: the next state is the old one but for the response, which
carries no buffer. -/
def Obligations.FailureWritesNothing : Prop :=
  ∀ (i : Instr) (s t : State) (r : Response), exec i s = .next t → t.returned = .response r :: s.returned →
    r.status ≠ .ok → t = s.respond r.status [] ∧ r.buf = []

/-- R155: failures are permanent for given register contents. A WRITE or TOBYTES that failed fails with the same status
in every state with the same registers, so also when it is repeated without a new CONSTRUCT. -/
def Obligations.FailureRepeats : Prop :=
  ∀ (i : Instr) (s u : State) (st : Status), i = .write ∨ i = .toBytes →
    exec i s = .next (s.respond st []) → st ≠ .ok → SameRegisters s u → exec i u = .next (u.respond st [])

/-- R45 (the room a WRITE needs), R93 (VALIDATE comes first, then the room, else the request is refused) and R159 (without
room there is no step): an encodable header without room is refused; a failing WRITE fails whatever the room. -/
def Obligations.WriteWithoutRoomIsRefused : Prop :=
  (∀ (s : State) (v : HeaderCodes), CanEncode s v → ¬ RoomFor (hdrSize s.crcAbs) s.sink →
    exec .write s = .refused .sinkNoRoom)
  ∧ (∀ s : State, (¬ ∃ v, CanEncode s v) → ∃ st, st ≠ Status.ok ∧ exec .write s = .next (s.respond st []))

/-- R70: the reserved operation code is refused, whatever its operand bits: the block has no step for it. -/
def Obligations.ReservedOpIsRefused : Prop :=
  (∀ s : State, exec .reservedOp s = .refused .reservedOp)
  ∧ (∀ (s : State) (ignored : BitVec 97) (rest : List HostMove),
    s.pending = .word (.req99 (0b11#2 ++ ignored)) :: rest → step s = .refused .reservedOp)

/-- R159: a host that issues requests only sees a refusal for two requests alone, the reserved code and a WRITE of an
encodable header without room; a fault comes only from an act of its own outside the sink. -/
def Obligations.OnlyTwoRequestsAreRefused : Prop :=
  ∀ s : State, RequestsOnly s →
    (∀ r, step s = .refused r → ∃ w rest, s.pending = .word w :: rest
      ∧ (decode w = .ok .reservedOp ∧ r = .reservedOp
        ∨ decode w = .ok .write ∧ r = .sinkNoRoom ∧ (∃ v, CanEncode s v) ∧ ¬ RoomFor (hdrSize s.crcAbs) s.sink))
    ∧ (∀ e, step s = .fault e → e = .hostOutsideSink ∧ ∃ a rest, s.pending = .act a :: rest)

/-- R183: `HEADERBYTES 1, sampleRate, channelCount, 0` answers `UNSUPPORTED_PARAMETER` exactly when the rate or the count
is unsupported, and touches no sink. -/
def Obligations.FailFastCheck : Prop :=
  ∀ (s : State) (r : Rate) (c : Count), ∃ t u, exec (.construct 1#1 r c 0#32) s = .next t
    ∧ exec .toBytes t = .next u ∧ u.sink = s.sink
    ∧ (u.returned = .response { status := .unsupportedParameter, buf := [], rdpos := 0 } :: t.returned
        ↔ sfi r = none ∨ chc c = none)

/-- R100: the comparison with 8191 is a test of the bits from 13 up of the 33-bit sum. -/
def Obligations.TooLargeIsAHighBit : Prop :=
  ∀ (pa : BitVec 1) (l : Len),
    8191 < frameLen pa l ↔ ∃ i, 13 ≤ i ∧ i ≤ 32 ∧ (BitVec.ofNat 33 (frameLen pa l)).getLsbD i = true

/-! ### The sink primitives, the header rows and the status rows -/

/-- R41: MemWrite stores `n` bytes, the most significant at the lowest address, and leaves every other byte. -/
def Obligations.MemWriteIsBigEndian : Prop :=
  ∀ (m : Mem) (addr n : Nat) (v : BitVec (8 * n)), n = 1 ∨ n = 2 ∨ n = 4 →
    (∀ k, k < n → (memWrite m addr n v).read (addr + k) = some (v.extractLsb' (8 * (n - k - 1)) 8))
    ∧ (∀ x, x < addr ∨ addr + n ≤ x → (memWrite m addr n v).read x = m.read x)

/-- R42, R43, R44: each put, with room, stores its value big-endian at the cursor, at any address, and advances the
cursor by its width; it leaves every other byte, the limit, the registers and what was returned. -/
def Obligations.PutsStoreAndAdvance : Prop :=
  (∀ (v : BitVec 8) (s : State), RoomFor 1 s.sink → ∃ t, exec (.putByte v) s = .next t
    ∧ t.sink.mem.read s.sink.pos = some v
    ∧ SameMemOutside s.sink.pos 1 s t ∧ t.sink.pos = s.sink.pos + 1 ∧ t.sink.limit = s.sink.limit
    ∧ SameRegisters s t ∧ t.returned = s.returned ∧ t.pending = s.pending)
  ∧ (∀ (v : BitVec 16) (s : State), RoomFor 2 s.sink → ∃ t, exec (.putShort v) s = .next t
    ∧ t.sink.mem.read s.sink.pos = some (v.extractLsb' 8 8) ∧ t.sink.mem.read (s.sink.pos + 1) = some (v.extractLsb' 0 8)
    ∧ SameMemOutside s.sink.pos 2 s t ∧ t.sink.pos = s.sink.pos + 2 ∧ t.sink.limit = s.sink.limit
    ∧ SameRegisters s t ∧ t.returned = s.returned ∧ t.pending = s.pending)
  ∧ (∀ (v : BitVec 32) (s : State), RoomFor 4 s.sink → ∃ t, exec (.putInt v) s = .next t
    ∧ t.sink.mem.read s.sink.pos = some (v.extractLsb' 24 8) ∧ t.sink.mem.read (s.sink.pos + 1) = some (v.extractLsb' 16 8)
    ∧ t.sink.mem.read (s.sink.pos + 2) = some (v.extractLsb' 8 8) ∧ t.sink.mem.read (s.sink.pos + 3) = some (v.extractLsb' 0 8)
    ∧ SameMemOutside s.sink.pos 4 s t ∧ t.sink.pos = s.sink.pos + 4 ∧ t.sink.limit = s.sink.limit
    ∧ SameRegisters s t ∧ t.returned = s.returned ∧ t.pending = s.pending)

/-- The requirement of R42 to R44: a put without room has no step. -/
def Obligations.PutsWithoutRoomAreRefused : Prop :=
  ∀ s : State,
    (∀ v : BitVec 8, ¬ RoomFor 1 s.sink → exec (.putByte v) s = .refused .sinkNoRoom)
    ∧ (∀ v : BitVec 16, ¬ RoomFor 2 s.sink → exec (.putShort v) s = .refused .sinkNoRoom)
    ∧ (∀ v : BitVec 32, ¬ RoomFor 4 s.sink → exec (.putInt v) s = .refused .sinkNoRoom)

/-- The header rows run alone (R63, R64; that they run alone and test no register is the model's choice, log entries 5
and 9): codes the block emits, with room, are appended as the bytes of ENCODE, and nothing else changes. -/
def Obligations.HeaderRowsAppendTheHeader : Prop :=
  ∀ (f : BitVec 4) (c : BitVec 3) (fl : BitVec 13) (s : State), f.toNat ≤ 12 → c ≠ 0#3 →
    (7 ≤ fl.toNat → RoomFor 7 s.sink → ∃ t, exec (.hdr7 f c fl) s = .next t
      ∧ (∀ k, k < 7 → t.sink.mem.read (s.sink.pos + k) = (headerBytes 1#1 f c fl)[k]?)
      ∧ SameMemOutside s.sink.pos 7 s t ∧ t.sink.pos = s.sink.pos + 7 ∧ t.sink.limit = s.sink.limit
      ∧ SameRegisters s t ∧ t.returned = s.returned ∧ t.pending = s.pending)
    ∧ (9 ≤ fl.toNat → RoomFor 9 s.sink → ∃ t, exec (.hdr9 f c fl) s = .next t
      ∧ (∀ k, k < 9 → t.sink.mem.read (s.sink.pos + k) = (headerBytes 0#1 f c fl)[k]?)
      ∧ SameMemOutside s.sink.pos 9 s t ∧ t.sink.pos = s.sink.pos + 9 ∧ t.sink.limit = s.sink.limit
      ∧ SameRegisters s t ∧ t.returned = s.returned ∧ t.pending = s.pending)

/-- The other forms of the header rows: a code the block never emits ends in `UNSUPPORTED_PARAMETER` (R71 read for a row,
log entry 8), and codes it emits without room are refused. -/
def Obligations.HeaderRowsStopOrFail : Prop :=
  ∀ (f : BitVec 4) (c : BitVec 3) (fl : BitVec 13) (s : State),
    (12 < f.toNat ∨ c = 0#3 ∨ fl.toNat < 7 → exec (.hdr7 f c fl) s = .next (s.respond .unsupportedParameter []))
    ∧ (12 < f.toNat ∨ c = 0#3 ∨ fl.toNat < 9 → exec (.hdr9 f c fl) s = .next (s.respond .unsupportedParameter []))
    ∧ (f.toNat ≤ 12 → c ≠ 0#3 → 7 ≤ fl.toNat → ¬ RoomFor 7 s.sink → exec (.hdr7 f c fl) s = .refused .sinkNoRoom)
    ∧ (f.toNat ≤ 12 → c ≠ 0#3 → 9 ≤ fl.toNat → ¬ RoomFor 9 s.sink → exec (.hdr9 f c fl) s = .refused .sinkNoRoom)

/-- R153: the four status codes are 0 to 3, and each row answers with its status, no buffer, and nothing else changed. -/
def Obligations.StatusRowsRespond : Prop :=
  (encode .statusOk = .status2 0b00#2 ∧ encode .statusUnsupportedParameter = .status2 0b01#2
    ∧ encode .statusFrameTooLarge = .status2 0b10#2 ∧ encode .statusNoHeader = .status2 0b11#2)
  ∧ ∀ s : State, exec .statusOk s = .next (s.respond .ok [])
    ∧ exec .statusUnsupportedParameter s = .next (s.respond .unsupportedParameter [])
    ∧ exec .statusFrameTooLarge s = .next (s.respond .frameTooLarge [])
    ∧ exec .statusNoHeader s = .next (s.respond .noHeader [])

/-! ### Frames -/

/-- R21: no instruction but CONSTRUCT changes a register or the flag. -/
def Obligations.OnlyConstructWritesRegisters : Prop :=
  ∀ (i : Instr) (s t : State), exec i s = .next t → (∀ a r c l, i ≠ .construct a r c l) → SameRegisters s t

/-- Frame of the lookups, the status rows, CONSTRUCT and TOBYTES: the sink is as it was, every byte of it, and so are
the host's moves; but for CONSTRUCT the registers are, too (R48, R49, R110, R154). -/
def Obligations.RowsThatStoreNothing : Prop :=
  ∀ (i : Instr) (s t : State), exec i s = .next t →
    i.format = .sfi4 ∨ i.format = .chc3 ∨ i.format = .status2 ∨ i = .toBytes ∨ (∃ a r c l, i = .construct a r c l) →
    t.sink = s.sink ∧ (∀ x, t.sink.mem.read x = s.sink.mem.read x) ∧ t.pending = s.pending
    ∧ ((∀ a r c l, i ≠ .construct a r c l) → SameRegisters s t)

/-- R48: a WRITE that succeeds stores into the HDRSIZE bytes from the cursor on, leaves every other byte, and moves the
cursor past them; one that fails leaves the sink. The limit, the registers and the host's moves stay in both. CONSTRUCT
and TOBYTES never touch the sink. -/
def Obligations.WriteFrame : Prop :=
  (∀ s t : State, exec .write s = .next t →
    t.sink.limit = s.sink.limit ∧ SameRegisters s t ∧ t.pending = s.pending
    ∧ ∃ st, t.returned = .response { status := st, buf := [], rdpos := 0 } :: s.returned
      ∧ (st = .ok → SameMemOutside s.sink.pos (hdrSize s.crcAbs) s t ∧ t.sink.pos = s.sink.pos + hdrSize s.crcAbs)
      ∧ (st ≠ .ok → t.sink = s.sink))
  ∧ (∀ (i : Instr) (s t : State), i = .toBytes ∨ (∃ a r c l, i = .construct a r c l) → exec i s = .next t →
    t.sink = s.sink)

/-- Frame of the header rows and the puts: bytes outside those stored from the cursor on, the limit, the registers and
the host's moves stay (R42 to R44, R48). -/
def Obligations.StoringRowsFrame : Prop :=
  ∀ (i : Instr) (n : Nat) (s t : State), exec i s = .next t →
    (∃ v, i = .putByte v ∧ n = 1) ∨ (∃ v, i = .putShort v ∧ n = 2) ∨ (∃ v, i = .putInt v ∧ n = 4)
      ∨ (∃ f c fl, i = .hdr7 f c fl ∧ n = 7) ∨ (∃ f c fl, i = .hdr9 f c fl ∧ n = 9) →
    SameMemOutside s.sink.pos n s t ∧ t.sink.limit = s.sink.limit ∧ SameRegisters s t ∧ t.pending = s.pending
    ∧ (t.sink = s.sink ∨ (t.sink.pos = s.sink.pos + n ∧ t.returned = s.returned))

/-- R51 (c), R25: no instruction changes a byte below the cursor, moves the cursor back, or changes the limit. -/
def Obligations.EarlierBytesAreNeverChanged : Prop :=
  ∀ (i : Instr) (s t : State), exec i s = .next t →
    (∀ x, x < s.sink.pos → t.sink.mem.read x = s.sink.mem.read x)
    ∧ s.sink.pos ≤ t.sink.pos ∧ t.sink.limit = s.sink.limit

/-- R24: what operations have returned is no state. An instruction only adds to it, and what it does is the same
whatever was returned before. -/
def Obligations.ReturnedIsNeverRead : Prop :=
  ∀ (i : Instr) (s t : State), exec i s = .next t →
    ∃ new, t.returned = new ++ s.returned
      ∧ ∀ old, exec i { s with returned := old } = .next { t with returned := new ++ old }

/-- R49: no operation depends on the bytes in the sink. With other bytes in it, an instruction returns the same, moves
the cursor alike and stores the same bytes. -/
def Obligations.SinkBytesAreNeverRead : Prop :=
  ∀ (i : Instr) (s t : State) (m : Mem), exec i s = .next t →
    ∃ u, exec i { s with sink := { s.sink with mem := m } } = .next u
      ∧ u.returned = t.returned ∧ u.sink.pos = t.sink.pos ∧ SameRegisters t u
      ∧ ∀ x, s.sink.pos ≤ x → x < t.sink.pos → u.sink.mem.read x = t.sink.mem.read x

/-! ### Steps -/

/-- A step runs the decoded instruction: when the host's next move is a word that decodes to `i`, the step is `exec i`
with that move taken off the list, and nothing around it (the list of moves is log entry 3); a word placed by
`withFetchWord` is the next step's (which word some bits stand for is log entry 16); a word that does not decode, which
only a header word can be, stops the step with the fault `undecodable` (the model's choice, log entry 21). -/
def Obligations.StepRunsTheDecodedInstruction : Prop :=
  (∀ (s : State) (w : TableWord) (i : Instr) (rest : List HostMove),
    s.pending = .word w :: rest → decode w = .ok i → step s = exec i { s with pending := rest })
  ∧ (∀ (s : State) (nbits w : Nat) (i : Instr), decodeTableWord nbits w = some i →
    step (s.withFetchWord nbits w) = exec i s)
  ∧ (∀ (s : State) (w : TableWord) (e : DecodeError) (rest : List HostMove),
    s.pending = .word w :: rest → decode w = .error e → step s = .fault (.undecodable e))

/-- Steps that run no instruction: with no move left nothing happens (the model's choice, log entry 12), and each act of
the host does what log entry 18 says; the reset leaves the sink (R180), with the register values of log entry 1. -/
def Obligations.StepTakesHostActs : Prop :=
  (∀ s : State, s.pending = [] → step s = .next s)
  ∧ (∀ (s : State) (rest : List HostMove), s.pending = .act .reset :: rest →
    step s = .next { State.reset with sink := s.sink, returned := s.returned, pending := rest })
  ∧ (∀ (s : State) (rest : List HostMove) (bs : List Byte), s.pending = .act (.append bs) :: rest →
    RoomFor bs.length s.sink →
    ∃ t, step s = .next t ∧ (∀ k, k < bs.length → t.sink.mem.read (s.sink.pos + k) = bs[k]?)
      ∧ SameMemOutside s.sink.pos bs.length s t ∧ t.sink.pos = s.sink.pos + bs.length ∧ SameRegisters s t)
  ∧ (∀ (s : State) (rest : List HostMove) (x : Nat) (b : Byte), s.pending = .act (.poke x b) :: rest →
    (∀ l, s.sink.limit = some l → x < l) →
    ∃ t, step s = .next t ∧ t.sink.mem.read x = some b ∧ SameMemOutside x 1 s t ∧ t.sink.pos = s.sink.pos
      ∧ SameRegisters s t)
  ∧ (∀ (s : State) (rest : List HostMove) (p : Nat), s.pending = .act (.seek p) :: rest →
    step s = .next { s with sink := { s.sink with pos := p }, pending := rest })
  ∧ (∀ (s : State) (rest : List HostMove) (l : Option Nat), s.pending = .act (.freshSink l) :: rest →
    step s = .next { s with sink := { mem := [], pos := 0, limit := l }, pending := rest })

/-- What reset leaves: HVALID is 0 (R32); the sink is empty, and nothing was returned or announced. The register values
are the model's (log entry 1), the sink's start is log entry 10. -/
def Obligations.ResetState : Prop :=
  State.reset.hvalid = false ∧ State.reset.sink.mem = [] ∧ State.reset.sink.pos = 0 ∧ State.reset.sink.limit = none
  ∧ State.reset.crcAbs = 0#1 ∧ State.reset.sRate = 0#32 ∧ State.reset.chCnt = 0#32 ∧ State.reset.pLen = 0#32
  ∧ State.reset.returned = [] ∧ State.reset.pending = []

/-- The invariant holds right after reset. -/
def Obligations.InvariantHoldsAtReset : Prop := MachineInv State.reset

/-- Every step keeps the invariant: the sink's memory stays in canonical form, and every buffer and code ever returned
is a header or a code the block can emit (R60, R67, R69, R71, R96, R125, R138). -/
def Obligations.StepKeepsTheInvariant : Prop :=
  ∀ s t : State, MachineInv s → step s = .next t → MachineInv t

/-- A host that issues requests only keeps doing so: no step adds a move. -/
def Obligations.StepsAddNoMoves : Prop :=
  ∀ s t : State, step s = .next t → (RequestsOnly s → RequestsOnly t) ∧ t.pending = s.pending.tail
end

