-- ==== Sys2Proof/Laws/State.lean ====
section
/-! SUPPORT. One lemma per field and update of State: what each named update leaves and what it writes. -/

namespace Sys2Proof.Machine

@[simp] theorem State.setOperands_crcAbs (s : State) (a : BitVec 1) (r : Rate) (c : Count) (l : Len) : (s.setOperands a r c l).crcAbs = a := rfl

@[simp] theorem State.setOperands_sRate (s : State) (a : BitVec 1) (r : Rate) (c : Count) (l : Len) : (s.setOperands a r c l).sRate = r := rfl

@[simp] theorem State.setOperands_chCnt (s : State) (a : BitVec 1) (r : Rate) (c : Count) (l : Len) : (s.setOperands a r c l).chCnt = c := rfl

@[simp] theorem State.setOperands_pLen (s : State) (a : BitVec 1) (r : Rate) (c : Count) (l : Len) : (s.setOperands a r c l).pLen = l := rfl

@[simp] theorem State.setOperands_hvalid (s : State) (a : BitVec 1) (r : Rate) (c : Count) (l : Len) : (s.setOperands a r c l).hvalid = s.hvalid := rfl

@[simp] theorem State.setOperands_sink (s : State) (a : BitVec 1) (r : Rate) (c : Count) (l : Len) : (s.setOperands a r c l).sink = s.sink := rfl

@[simp] theorem State.setOperands_returned (s : State) (a : BitVec 1) (r : Rate) (c : Count) (l : Len) : (s.setOperands a r c l).returned = s.returned := rfl

@[simp] theorem State.setOperands_pending (s : State) (a : BitVec 1) (r : Rate) (c : Count) (l : Len) : (s.setOperands a r c l).pending = s.pending := rfl

@[simp] theorem State.setSink_crcAbs (s : State) (k : Sink) : (s.setSink k).crcAbs = s.crcAbs := rfl

@[simp] theorem State.setSink_sRate (s : State) (k : Sink) : (s.setSink k).sRate = s.sRate := rfl

@[simp] theorem State.setSink_chCnt (s : State) (k : Sink) : (s.setSink k).chCnt = s.chCnt := rfl

@[simp] theorem State.setSink_pLen (s : State) (k : Sink) : (s.setSink k).pLen = s.pLen := rfl

@[simp] theorem State.setSink_hvalid (s : State) (k : Sink) : (s.setSink k).hvalid = s.hvalid := rfl

@[simp] theorem State.setSink_sink (s : State) (k : Sink) : (s.setSink k).sink = k := rfl

@[simp] theorem State.setSink_returned (s : State) (k : Sink) : (s.setSink k).returned = s.returned := rfl

@[simp] theorem State.setSink_pending (s : State) (k : Sink) : (s.setSink k).pending = s.pending := rfl

@[simp] theorem State.setHvalid_crcAbs (s : State) : (s.setHvalid).crcAbs = s.crcAbs := rfl

@[simp] theorem State.setHvalid_sRate (s : State) : (s.setHvalid).sRate = s.sRate := rfl

@[simp] theorem State.setHvalid_chCnt (s : State) : (s.setHvalid).chCnt = s.chCnt := rfl

@[simp] theorem State.setHvalid_pLen (s : State) : (s.setHvalid).pLen = s.pLen := rfl

@[simp] theorem State.setHvalid_hvalid (s : State) : (s.setHvalid).hvalid = true := rfl

@[simp] theorem State.setHvalid_sink (s : State) : (s.setHvalid).sink = s.sink := rfl

@[simp] theorem State.setHvalid_returned (s : State) : (s.setHvalid).returned = s.returned := rfl

@[simp] theorem State.setHvalid_pending (s : State) : (s.setHvalid).pending = s.pending := rfl

@[simp] theorem State.give_crcAbs (s : State) (r : Returned) : (s.give r).crcAbs = s.crcAbs := rfl

@[simp] theorem State.give_sRate (s : State) (r : Returned) : (s.give r).sRate = s.sRate := rfl

@[simp] theorem State.give_chCnt (s : State) (r : Returned) : (s.give r).chCnt = s.chCnt := rfl

@[simp] theorem State.give_pLen (s : State) (r : Returned) : (s.give r).pLen = s.pLen := rfl

@[simp] theorem State.give_hvalid (s : State) (r : Returned) : (s.give r).hvalid = s.hvalid := rfl

@[simp] theorem State.give_sink (s : State) (r : Returned) : (s.give r).sink = s.sink := rfl

@[simp] theorem State.give_returned (s : State) (r : Returned) : (s.give r).returned = r :: s.returned := rfl

@[simp] theorem State.give_pending (s : State) (r : Returned) : (s.give r).pending = s.pending := rfl

@[simp] theorem State.respond_crcAbs (s : State) (st : Status) (b : List Byte) : (s.respond st b).crcAbs = s.crcAbs := rfl

@[simp] theorem State.respond_sRate (s : State) (st : Status) (b : List Byte) : (s.respond st b).sRate = s.sRate := rfl

@[simp] theorem State.respond_chCnt (s : State) (st : Status) (b : List Byte) : (s.respond st b).chCnt = s.chCnt := rfl

@[simp] theorem State.respond_pLen (s : State) (st : Status) (b : List Byte) : (s.respond st b).pLen = s.pLen := rfl

@[simp] theorem State.respond_hvalid (s : State) (st : Status) (b : List Byte) : (s.respond st b).hvalid = s.hvalid := rfl

@[simp] theorem State.respond_sink (s : State) (st : Status) (b : List Byte) : (s.respond st b).sink = s.sink := rfl

@[simp] theorem State.respond_returned (s : State) (st : Status) (b : List Byte) : (s.respond st b).returned = .response { status := st, buf := b, rdpos := 0 } :: s.returned := rfl

@[simp] theorem State.respond_pending (s : State) (st : Status) (b : List Byte) : (s.respond st b).pending = s.pending := rfl

@[simp] theorem resetBlock_crcAbs (s : State) : (resetBlock s).crcAbs = Config.resetCrcAbs := rfl

@[simp] theorem resetBlock_sRate (s : State) : (resetBlock s).sRate = Config.resetSRate := rfl

@[simp] theorem resetBlock_chCnt (s : State) : (resetBlock s).chCnt = Config.resetChCnt := rfl

@[simp] theorem resetBlock_pLen (s : State) : (resetBlock s).pLen = Config.resetPLen := rfl

@[simp] theorem resetBlock_hvalid (s : State) : (resetBlock s).hvalid = false := rfl

@[simp] theorem resetBlock_sink (s : State) : (resetBlock s).sink = s.sink := rfl

@[simp] theorem resetBlock_returned (s : State) : (resetBlock s).returned = s.returned := rfl

@[simp] theorem resetBlock_pending (s : State) : (resetBlock s).pending = s.pending := rfl

@[simp] theorem Sink.append_pos (k : Sink) (bs : List Byte) : (k.append bs).pos = k.pos + bs.length := rfl

@[simp] theorem Sink.append_limit (k : Sink) (bs : List Byte) : (k.append bs).limit = k.limit := rfl

@[simp] theorem Sink.append_mem (k : Sink) (bs : List Byte) : (k.append bs).mem = k.mem.writeBytes k.pos bs := rfl

@[simp] theorem Sink.putByte_pos (k : Sink) (v : BitVec 8) : (k.putByte v).pos = k.pos + 1 := rfl

@[simp] theorem Sink.putByte_limit (k : Sink) (v : BitVec 8) : (k.putByte v).limit = k.limit := rfl

@[simp] theorem Sink.putByte_mem (k : Sink) (v : BitVec 8) : (k.putByte v).mem = memWrite k.mem k.pos 1 v := rfl

@[simp] theorem Sink.putShort_pos (k : Sink) (v : BitVec 16) : (k.putShort v).pos = k.pos + 2 := rfl

@[simp] theorem Sink.putShort_limit (k : Sink) (v : BitVec 16) : (k.putShort v).limit = k.limit := rfl

@[simp] theorem Sink.putShort_mem (k : Sink) (v : BitVec 16) : (k.putShort v).mem = memWrite k.mem k.pos 2 v := rfl

@[simp] theorem Sink.putInt_pos (k : Sink) (v : BitVec 32) : (k.putInt v).pos = k.pos + 4 := rfl

@[simp] theorem Sink.putInt_limit (k : Sink) (v : BitVec 32) : (k.putInt v).limit = k.limit := rfl

@[simp] theorem Sink.putInt_mem (k : Sink) (v : BitVec 32) : (k.putInt v).mem = memWrite k.mem k.pos 4 v := rfl

end Sys2Proof.Machine
end

