-- ==== Sys2Proof/Laws/Memory.lean ====
section
/-! SUPPORT. The sink's memory: a read after a write, the bytes a write leaves alone, and that every memory operation
keeps the canonical form. -/

namespace Sys2Proof.Machine

theorem Mem.read_write_same (m : Mem) (a : Nat) (b : Byte) : (m.write a b).read a = some b := by
  induction m with
  | nil => simp [Mem.write, Mem.read]
  | cons c cs ih =>
    simp only [Mem.write]
    split
    · simp [Mem.read]
    · split
      · simp [Mem.read]
      · rename_i h; simp [Mem.read, Ne.symm h, ih]

theorem Mem.read_write_other (m : Mem) {a x : Nat} (b : Byte) (h : x ≠ a) : (m.write a b).read x = m.read x := by
  induction m with
  | nil => simp [Mem.write, Mem.read, Ne.symm h]
  | cons c cs ih =>
    simp only [Mem.write]
    split
    · simp [Mem.read, Ne.symm h]
    · split
      · rename_i h'; subst h'; simp [Mem.read, Ne.symm h]
      · simp [Mem.read, ih]

/-- The canonical form of a list with one more entry in front: it lies below the rest's first address. -/
theorem Mem.wf_cons_iff (c : Host.Cell) (m : Mem) :
    Mem.wf (c :: m) = true ↔ (∀ d ∈ m.head?, c.1 < d.1) ∧ Mem.wf m = true := by
  cases m <;> simp [Mem.wf]

theorem Mem.wf_write {m : Mem} (h : m.wf = true) (a : Nat) (b : Byte) : (m.write a b).wf = true := by
  induction m with
  | nil => simp [Mem.write, Mem.wf]
  | cons c cs ih =>
    obtain ⟨hc, hcs⟩ := (Mem.wf_cons_iff c cs).1 h
    simp only [Mem.write]
    split
    · next h1 => exact (Mem.wf_cons_iff _ _).2 ⟨by simpa using h1, h⟩
    · split
      · next h2 => exact (Mem.wf_cons_iff _ _).2 ⟨by simpa [h2] using hc, hcs⟩
      · next h1 h2 =>
        refine (Mem.wf_cons_iff _ _).2 ⟨?_, ih hcs⟩
        intro d hd
        cases cs with
        | nil => obtain rfl : d = (a, b) := by simpa [Mem.write, eq_comm] using hd
                 simp only; omega
        | cons e es =>
          have he : c.1 < e.1 := hc e (by simp)
          simp only [Mem.write] at hd
          split at hd
          · obtain rfl : d = (a, b) := by simpa [eq_comm] using hd
            simp only; omega
          · split at hd
            · obtain rfl : d = (a, b) := by simpa [eq_comm] using hd
              simp only; omega
            · obtain rfl : d = e := by simpa [eq_comm] using hd
              exact he

theorem Mem.wf_writeBytes {m : Mem} (h : m.wf = true) (a : Nat) (bs : List Byte) : (m.writeBytes a bs).wf = true := by
  induction bs generalizing m a with
  | nil => exact h
  | cons b bs ih => exact ih (Mem.wf_write h a b) (a + 1)

theorem Mem.wf_memWrite {m : Mem} (h : m.wf = true) (a n : Nat) {w : Nat} (v : BitVec w) : (memWrite m a n v).wf = true :=
  Mem.wf_writeBytes h a _

theorem Mem.wf_reset : State.reset.sink.mem.wf = true := rfl

/-- What memory reads as after a run of bytes is stored: the bytes, and elsewhere what it read as before. -/
theorem Mem.read_writeBytes (m : Mem) (a : Nat) (bs : List Byte) (x : Nat) :
    (m.writeBytes a bs).read x = if a ≤ x ∧ x < a + bs.length then bs[x - a]? else m.read x := by
  induction bs generalizing m a with
  | nil =>
    have : ¬ (a ≤ x ∧ x < a + 0) := by omega
    simp [Mem.writeBytes]
  | cons b bs ih =>
    rw [Mem.writeBytes, ih]
    by_cases hx : x = a
    · subst hx
      simp [Mem.read_write_same]
    · rw [Mem.read_write_other m b hx]
      by_cases h1 : a + 1 ≤ x ∧ x < a + 1 + bs.length
      · have h2 : a ≤ x ∧ x < a + (bs.length + 1) := by omega
        have h3 : x - a = (x - (a + 1)) + 1 := by omega
        simp only [h1, List.length_cons, h2, and_self, if_true, h3, List.getElem?_cons_succ]
      · have h2 : ¬ (a ≤ x ∧ x < a + (bs.length + 1)) := by omega
        simp only [h1, List.length_cons, h2, if_false]

theorem Mem.read_writeBytes_outside (m : Mem) {a x : Nat} {bs : List Byte} (h : x < a ∨ a + bs.length ≤ x) :
    (m.writeBytes a bs).read x = m.read x := by
  rw [Mem.read_writeBytes, if_neg (by omega)]

theorem Mem.writeBytes_append (m : Mem) (a : Nat) (bs cs : List Byte) :
    m.writeBytes a (bs ++ cs) = (m.writeBytes a bs).writeBytes (a + bs.length) cs := by
  induction bs generalizing m a with
  | nil => rfl
  | cons b bs ih => simp only [List.cons_append, Mem.writeBytes, List.length_cons, ih]; congr 1; omega

@[simp] theorem bigEndian_length (n : Nat) {w : Nat} (v : BitVec w) : (bigEndian n v).length = n := by
  simp [bigEndian]

/-- Byte `k` of the big-endian bytes of a value (R41). -/
theorem bigEndian_getElem? {n k : Nat} {w : Nat} (v : BitVec w) (h : k < n) :
    (bigEndian n v)[k]? = some (v.extractLsb' (8 * (n - 1 - k)) 8) := by
  simp [bigEndian, h]

end Sys2Proof.Machine
end

