-- ==== Sys2Proof/Laws/Ops.lean ====
section
/-! SUPPORT. One lemma per shared operation that says everything it can do, and from them what a next state of `exec`
looks like. -/

namespace Sys2Proof.Machine

/-! ### The sink -/

theorem Sink.append_nil (k : Sink) : k.append [] = k := rfl

theorem Sink.append_append (k : Sink) (bs cs : List Byte) : (k.append bs).append cs = k.append (bs ++ cs) := by
  simp only [Sink.append, Mem.writeBytes_append, List.length_append, Nat.add_assoc]

theorem Sink.putByte_eq_append (k : Sink) (v : BitVec 8) : k.putByte v = k.append (bigEndian 1 v) := by
  simp [Sink.putByte, Sink.append, memWrite]

theorem Sink.putShort_eq_append (k : Sink) (v : BitVec 16) : k.putShort v = k.append (bigEndian 2 v) := by
  simp [Sink.putShort, Sink.append, memWrite]

theorem Sink.putInt_eq_append (k : Sink) (v : BitVec 32) : k.putInt v = k.append (bigEndian 4 v) := by
  simp [Sink.putInt, Sink.append, memWrite]

/-- The bytes the puts of a header store, in stream order: those of `W16`, `W32`, `B6` and the CRC space (R63, R94). -/
def wordBytes (pa : BitVec 1) (f : BitVec 4) (c : BitVec 3) (fl : BitVec 13) : List Byte :=
  bigEndian 2 (w16 pa) ++ bigEndian 4 (w32 f c fl) ++ bigEndian 1 b6
    ++ (if pa = 0#1 then bigEndian 2 Config.crcFill else [])

theorem emitHeader_eq_append (pa : BitVec 1) (f : BitVec 4) (c : BitVec 3) (fl : BitVec 13) (k : Sink) :
    emitHeader pa f c fl k = k.append (wordBytes pa f c fl) := by
  simp only [emitHeader, wordBytes, Sink.putByte_eq_append, Sink.putShort_eq_append, Sink.putInt_eq_append,
    Sink.append_append]
  split <;> simp only [List.append_assoc, List.append_nil]

theorem hdrSize_cases (pa : BitVec 1) : (pa = 1#1 ∧ hdrSize pa = 7) ∨ (pa = 0#1 ∧ hdrSize pa = 9) := by
  revert pa; decide

theorem wordBytes_length (pa : BitVec 1) (f : BitVec 4) (c : BitVec 3) (fl : BitVec 13) :
    (wordBytes pa f c fl).length = hdrSize pa := by
  obtain ⟨rfl, h⟩ | ⟨rfl, h⟩ := hdrSize_cases pa <;> simp [wordBytes, h]

theorem headerBytes_length (pa : BitVec 1) (f : BitVec 4) (c : BitVec 3) (fl : BitVec 13) :
    (headerBytes pa f c fl).length = hdrSize pa := by
  obtain ⟨rfl, h⟩ | ⟨rfl, h⟩ := hdrSize_cases pa <;> simp [headerBytes, h]

/-! ### Outcomes -/

theorem raise_next {st : Status} {s t : State} : raise st s = .next t ↔ t = s.respond st [] := by
  simp only [raise, Host.Outcome.next.injEq]; exact eq_comm

theorem withRoom_next {n : Nat} {s t : State} {k : Sink} :
    withRoom n s k = .next t ↔ s.sink.hasRoom n = true ∧ t = s.setSink k := by
  unfold withRoom
  split
  · next h => simp only [Host.Outcome.next.injEq, h, true_and]; exact eq_comm
  · next h => simp [h]

/-- The two lookups end in a next state, whatever the operand: the code is handed back, or the failure. -/
theorem lookupRate_eq (rate : Rate) (s : State) :
    lookupRate rate s = .next (s.give (match sfi rate with
      | some code => .sfiCode code
      | none => .response { status := .unsupportedParameter, buf := [], rdpos := 0 })) := by
  unfold lookupRate; cases sfi rate <;> rfl

theorem lookupCount_eq (count : Count) (s : State) :
    lookupCount count s = .next (s.give (match chc count with
      | some code => .chcCode code
      | none => .response { status := .unsupportedParameter, buf := [], rdpos := 0 })) := by
  unfold lookupCount; cases chc count <;> rfl

/-- VALIDATE succeeds exactly when all four checks of R92 pass, with the looked-up codes and the frame length. -/
theorem validate_ok {s : State} {v : HeaderCodes} :
    validate s = .ok v ↔ s.hvalid = true ∧ sfi s.sRate = some v.sfi ∧ chc s.chCnt = some v.chc
      ∧ frameLen s.crcAbs s.pLen ≤ 8191 ∧ v.fl = BitVec.ofNat 13 (frameLen s.crcAbs s.pLen) := by
  obtain ⟨f, c, l⟩ := v
  unfold validate headerValid frameTooLong Config.maxFrameLength
  cases s.hvalid <;> cases sfi s.sRate <;> cases chc s.chCnt <;> simp
  by_cases h : 8191 < frameLen s.crcAbs s.pLen
  · simp [h]
  · have h' : frameLen s.crcAbs s.pLen ≤ 8191 := by omega
    simp [h, h', eq_comm]

/-- VALIDATE never answers with the status OK as its failure. -/
theorem validate_error_ne_ok {s : State} {st : Status} (h : validate s = .error st) : st ≠ .ok := by
  rintro rfl
  unfold validate at h
  split at h
  · cases h
  · split at h
    · cases h
    · split at h
      · cases h
      · split at h <;> cases h

/-- The frame length VALIDATE hands on is the exact sum: nothing is truncated (R65, R100). -/
theorem validate_fl_toNat {s : State} {v : HeaderCodes} (h : validate s = .ok v) :
    v.fl.toNat = frameLen s.crcAbs s.pLen := by
  obtain ⟨-, -, -, hle, hfl⟩ := validate_ok.1 h
  rw [hfl, BitVec.toNat_ofNat]; exact Nat.mod_eq_of_lt (by omega)

/-- A header row ends in the failure of R71, in the header appended, or in a refusal for want of room. -/
theorem emitRow_next {pa : BitVec 1} {f : BitVec 4} {c : BitVec 3} {fl : BitVec 13} {s t : State}
    (h : emitRow pa f c fl s = .next t) :
    (emittable (hdrSize pa) f c fl = true ∧ s.sink.hasRoom (hdrSize pa) = true
      ∧ t = s.setSink (s.sink.append (wordBytes pa f c fl)))
    ∨ (emittable (hdrSize pa) f c fl = false ∧ t = s.respond .unsupportedParameter []) := by
  unfold emitRow at h
  split at h
  · next he =>
    obtain ⟨hr, rfl⟩ := withRoom_next.1 h
    exact .inl ⟨he, hr, by rw [emitHeader_eq_append]⟩
  · next he => exact .inr ⟨by simpa using he, raise_next.1 h⟩

/-- Everything WRITE can do when it answers a next state. -/
theorem execWrite_next {s t : State} (h : execWrite s = .next t) :
    (∃ v, validate s = .ok v ∧ s.sink.hasRoom (hdrSize s.crcAbs) = true
      ∧ t = (s.setSink (s.sink.append (wordBytes s.crcAbs v.sfi v.chc v.fl))).respond .ok [])
    ∨ (∃ st, validate s = .error st ∧ t = s.respond st []) := by
  unfold execWrite at h
  split at h
  · next st hv => exact .inr ⟨st, hv, raise_next.1 h⟩
  · next v hv =>
    split at h
    · next hr => cases h; exact .inl ⟨v, hv, hr, by rw [emitHeader_eq_append]⟩
    · cases h

/-- Everything TOBYTES can do: it always answers a next state. -/
theorem execToBytes_next {s t : State} (h : execToBytes s = .next t) :
    (∃ v, validate s = .ok v ∧ t = s.respond .ok (headerBytes s.crcAbs v.sfi v.chc v.fl))
    ∨ (∃ st, validate s = .error st ∧ t = s.respond st []) := by
  unfold execToBytes at h
  split at h
  · next st hv => exact .inr ⟨st, hv, raise_next.1 h⟩
  · next v hv => cases h; exact .inl ⟨v, hv, rfl⟩

/-- Everything an act of the host can do when it answers a next state. -/
theorem hostAct_next {a : HostAct} {s t : State} (h : hostAct a s = .next t) :
    (∃ bs, a = .append bs ∧ s.sink.hasRoom bs.length = true ∧ t = s.setSink (s.sink.append bs))
    ∨ (∃ x b, a = .poke x b ∧ s.sink.hasAddr x = true ∧ t = s.setSink { s.sink with mem := s.sink.mem.write x b })
    ∨ (∃ p, a = .seek p ∧ t = s.setSink { s.sink with pos := p })
    ∨ (∃ l, a = .freshSink l ∧ t = s.setSink { mem := [], pos := 0, limit := l })
    ∨ (a = .reset ∧ t = resetBlock s) := by
  cases a <;> simp only [hostAct] at h
  · split at h
    · next hr => cases h; exact .inl ⟨_, rfl, hr, rfl⟩
    · cases h
  · split at h
    · next hr => cases h; exact .inr (.inl ⟨_, _, rfl, hr, rfl⟩)
    · cases h
  · cases h; exact .inr (.inr (.inl ⟨_, rfl, rfl⟩))
  · cases h; exact .inr (.inr (.inr (.inl ⟨_, rfl, rfl⟩)))
  · cases h; exact .inr (.inr (.inr (.inr ⟨rfl, rfl⟩)))

/-! ### The shape of every instruction's next state -/

/-- `t` is `s` with bytes appended to its sink and values handed back: what every instruction but CONSTRUCT does. -/
def Advances (s t : State) : Prop :=
  ∃ bs rs, t = { s with sink := s.sink.append bs, returned := rs ++ s.returned }

theorem advances_give (s : State) (r : Returned) : Advances s (s.give r) := ⟨[], [r], rfl⟩

theorem advances_append (s : State) (bs : List Byte) : Advances s (s.setSink (s.sink.append bs)) := ⟨bs, [], rfl⟩

theorem advances_raise {st : Status} {s t : State} (h : raise st s = .next t) : Advances s t := by
  rw [raise_next.1 h]; exact advances_give _ _

theorem advances_emitRow {pa : BitVec 1} {f : BitVec 4} {c : BitVec 3} {fl : BitVec 13} {s t : State}
    (h : emitRow pa f c fl s = .next t) : Advances s t := by
  obtain ⟨-, -, rfl⟩ | ⟨-, rfl⟩ := emitRow_next h
  · exact advances_append _ _
  · exact advances_give _ _

theorem advances_lookupRate {r : Rate} {s t : State} (h : lookupRate r s = .next t) : Advances s t := by
  rw [lookupRate_eq] at h; cases h; exact advances_give _ _

theorem advances_lookupCount {c : Count} {s t : State} (h : lookupCount c s = .next t) : Advances s t := by
  rw [lookupCount_eq] at h; cases h; exact advances_give _ _

theorem advances_write {s t : State} (h : execWrite s = .next t) : Advances s t := by
  obtain ⟨v, -, -, rfl⟩ | ⟨st, -, rfl⟩ := execWrite_next h
  · exact ⟨_, [_], rfl⟩
  · exact advances_give _ _

theorem advances_toBytes {s t : State} (h : execToBytes s = .next t) : Advances s t := by
  obtain ⟨v, -, rfl⟩ | ⟨st, -, rfl⟩ := execToBytes_next h <;> exact advances_give _ _

/-- What a next state of `exec` looks like: CONSTRUCT's, or the old state with bytes appended and values handed back. -/
theorem exec_next {i : Instr} {s t : State} (h : exec i s = .next t) :
    (∃ a r c l, i = .construct a r c l ∧ t = ((s.setOperands a r c l).setHvalid).respond .ok []) ∨ Advances s t := by
  cases i with
  | construct a r c l => cases h; exact .inl ⟨a, r, c, l, rfl, rfl⟩
  | write => exact .inr (advances_write h)
  | toBytes => exact .inr (advances_toBytes h)
  | reservedOp => cases h
  | hdr7 f c fl => exact .inr (advances_emitRow h)
  | hdr9 f c fl => exact .inr (advances_emitRow h)
  | sfiUnsupported r => exact .inr (advances_lookupRate h)
  | chcUnsupported c => exact .inr (advances_lookupCount h)
  | chcCode0 => exact .inr (advances_lookupCount (c := 0#32) h)
  | chcCount7 => exact .inr (advances_lookupCount (c := 7#32) h)
  | chc1 => exact .inr (advances_lookupCount (c := 1#32) h)
  | chc2 => exact .inr (advances_lookupCount (c := 2#32) h)
  | chc3 => exact .inr (advances_lookupCount (c := 3#32) h)
  | chc4 => exact .inr (advances_lookupCount (c := 4#32) h)
  | chc5 => exact .inr (advances_lookupCount (c := 5#32) h)
  | chc6 => exact .inr (advances_lookupCount (c := 6#32) h)
  | chc8 => exact .inr (advances_lookupCount (c := 8#32) h)
  | putByte v => obtain ⟨-, rfl⟩ := withRoom_next.1 h; rw [Sink.putByte_eq_append]; exact .inr (advances_append _ _)
  | putShort v => obtain ⟨-, rfl⟩ := withRoom_next.1 h; rw [Sink.putShort_eq_append]; exact .inr (advances_append _ _)
  | putInt v => obtain ⟨-, rfl⟩ := withRoom_next.1 h; rw [Sink.putInt_eq_append]; exact .inr (advances_append _ _)
  | statusOk => cases h; exact .inr (advances_give _ _)
  | statusUnsupportedParameter => exact .inr (advances_raise h)
  | statusFrameTooLarge => exact .inr (advances_raise h)
  | statusNoHeader => exact .inr (advances_raise h)
  | sfiCode13 => exact .inr (advances_raise h)
  | sfiCode14 => exact .inr (advances_raise h)
  | sfiCode15 => exact .inr (advances_raise h)
  | sfi96000 => exact .inr (advances_lookupRate (r := 96000#32) h)
  | sfi88200 => exact .inr (advances_lookupRate (r := 88200#32) h)
  | sfi64000 => exact .inr (advances_lookupRate (r := 64000#32) h)
  | sfi48000 => exact .inr (advances_lookupRate (r := 48000#32) h)
  | sfi44100 => exact .inr (advances_lookupRate (r := 44100#32) h)
  | sfi32000 => exact .inr (advances_lookupRate (r := 32000#32) h)
  | sfi24000 => exact .inr (advances_lookupRate (r := 24000#32) h)
  | sfi22050 => exact .inr (advances_lookupRate (r := 22050#32) h)
  | sfi16000 => exact .inr (advances_lookupRate (r := 16000#32) h)
  | sfi12000 => exact .inr (advances_lookupRate (r := 12000#32) h)
  | sfi11025 => exact .inr (advances_lookupRate (r := 11025#32) h)
  | sfi8000 => exact .inr (advances_lookupRate (r := 8000#32) h)
  | sfi7350 => exact .inr (advances_lookupRate (r := 7350#32) h)

/-- Everything a step can do when it answers a next state. -/
theorem step_next {s t : State} (h : step s = .next t) :
    (s.pending = [] ∧ t = s)
    ∨ (∃ a rest, s.pending = .act a :: rest ∧ hostAct a { s with pending := rest } = .next t)
    ∨ (∃ w i rest, s.pending = .word w :: rest ∧ decode w = .ok i ∧ exec i { s with pending := rest } = .next t) := by
  unfold step fetch at h
  split at h
  · next hf =>
    refine .inl ?_
    split at hf
    · next hp => cases h; exact ⟨hp, rfl⟩
    · cases hf
    · split at hf <;> cases hf
  · next a t' hf =>
    refine .inr (.inl ?_)
    split at hf
    · cases hf
    · next a' rest hp => cases hf; exact ⟨a, rest, hp, h⟩
    · split at hf <;> cases hf
  · next i t' hf =>
    refine .inr (.inr ?_)
    split at hf
    · cases hf
    · cases hf
    · next w rest hp =>
      split at hf
      · next i' hd => cases hf; exact ⟨w, i, rest, hp, hd, h⟩
      · cases hf
  · cases h

end Sys2Proof.Machine
end

