-- ==== Sys2Proof/Laws/Header.lean ====
section
/-! SUPPORT. The header's bits: PACK as the concatenation of its fields, and bit by bit. -/

namespace Sys2Proof

/-- One round of the fold of R66 is a concatenation, as long as the value fits its width and the accumulator has room. -/
theorem fold_round (n w : Nat) (acc : BitVec n) (v : BitVec w) (h : n + w ≤ 56) :
    acc.setWidth 56 <<< w ||| BitVec.ofNat 56 v.toNat = (acc ++ v).setWidth 56 := by
  apply BitVec.eq_of_getLsbD_eq
  intro i hi
  have hv : (BitVec.ofNat 56 v.toNat).getLsbD i = v.getLsbD i := by
    rw [BitVec.getLsbD_ofNat]; simp [hi, BitVec.getLsbD]
  simp only [BitVec.getLsbD_or, BitVec.getLsbD_shiftLeft, BitVec.getLsbD_setWidth, BitVec.getLsbD_append, hv]
  by_cases h1 : i < w
  · simp [h1, hi]
  · have : v.getLsbD i = false := BitVec.getLsbD_of_ge v i (by omega)
    simp [h1, hi, this]; omega

/-- PACK (R66) is the 15 fields of R61 side by side, the first field in the most significant bits. -/
theorem pack_eq_fields (pa : BitVec 1) (f : BitVec 4) (c : BitVec 3) (fl : BitVec 13) :
    pack pa f c fl = 0xFFF#12 ++ 0#1 ++ 0#2 ++ pa ++ 1#2 ++ f ++ 0#1 ++ c ++ 0#1 ++ 0#1 ++ 0#1 ++ 0#1 ++ fl
      ++ 0x7FF#11 ++ 0#2 := by
  have r := fun n w acc v h => fold_round n w acc v h
  unfold pack packFields
  simp only [List.foldl]
  have h0 : (0#56 <<< 12 ||| BitVec.ofNat 56 0xFFF) = (0xFFF#12).setWidth 56 := by decide
  rw [h0, show (BitVec.ofNat 56 0) = BitVec.ofNat 56 (0#1).toNat from rfl, r 12 1 _ 0#1 (by omega),
    show (BitVec.ofNat 56 (0#1).toNat) = BitVec.ofNat 56 (0#2).toNat from rfl, r 13 2 _ 0#2 (by omega),
    r 15 1 _ pa (by omega), show (BitVec.ofNat 56 1) = BitVec.ofNat 56 (1#2).toNat from rfl, r 16 2 _ 1#2 (by omega),
    r 18 4 _ f (by omega), show (BitVec.ofNat 56 (0#2).toNat) = BitVec.ofNat 56 (0#1).toNat from rfl,
    r 22 1 _ 0#1 (by omega), r 23 3 _ c (by omega), r 26 1 _ 0#1 (by omega), r 27 1 _ 0#1 (by omega),
    r 28 1 _ 0#1 (by omega), r 29 1 _ 0#1 (by omega), r 30 13 _ fl (by omega),
    show (BitVec.ofNat 56 0x7FF) = BitVec.ofNat 56 (0x7FF#11).toNat from rfl, r 43 11 _ 0x7FF#11 (by omega),
    show (BitVec.ofNat 56 (0#1).toNat) = BitVec.ofNat 56 (0#2).toNat from rfl, r 54 2 _ 0#2 (by omega),
    BitVec.setWidth_eq]

/-- Which field each bit of a packed header belongs to (R61's "bits of `h`" column). -/
theorem pack_getLsbD (pa : BitVec 1) (f : BitVec 4) (c : BitVec 3) (fl : BitVec 13) (i : Nat) :
    (pack pa f c fl).getLsbD i =
      if i < 2 then false else if i < 13 then true else if i < 26 then fl.getLsbD (i - 13)
      else if i < 30 then false else if i < 33 then c.getLsbD (i - 30) else if i < 34 then false
      else if i < 38 then f.getLsbD (i - 34) else if i = 38 then true else if i = 39 then false
      else if i = 40 then pa.getLsbD 0 else if i < 44 then false else decide (i < 56) := by
  by_cases hi : i < 56
  · rw [pack_eq_fields]
    repeat rw [BitVec.getLsbD_append]
    interval_cases i <;> simp
  · rw [BitVec.getLsbD_of_ge _ _ (by omega)]
    repeat rw [if_neg (by omega)]
    simp [hi]

end Sys2Proof
end

