-- ==== Sys2Proof/Laws/PerInstr.lean ====
section
/-! SUPPORT. One lemma per instruction: the encoder writes an instruction in the code space the table gives its row. -/

namespace Sys2Proof.Laws.EncodedFormat

/-- The word of an instruction lies in the code space that the table's "format" column names for its row. -/
def Statement (i : Instr) : Prop := (encode i).format = i.format

theorem construct (a : BitVec 1) (r : Rate) (c : Count) (l : Len) : Statement (.construct a r c l) := rfl

theorem write : Statement .write := rfl

theorem toBytes : Statement .toBytes := rfl

theorem reservedOp : Statement .reservedOp := rfl

theorem hdr7 (f : BitVec 4) (c : BitVec 3) (fl : BitVec 13) : Statement (.hdr7 f c fl) := rfl

theorem hdr9 (f : BitVec 4) (c : BitVec 3) (fl : BitVec 13) : Statement (.hdr9 f c fl) := rfl

theorem sfi96000 : Statement .sfi96000 := rfl

theorem sfi88200 : Statement .sfi88200 := rfl

theorem sfi64000 : Statement .sfi64000 := rfl

theorem sfi48000 : Statement .sfi48000 := rfl

theorem sfi44100 : Statement .sfi44100 := rfl

theorem sfi32000 : Statement .sfi32000 := rfl

theorem sfi24000 : Statement .sfi24000 := rfl

theorem sfi22050 : Statement .sfi22050 := rfl

theorem sfi16000 : Statement .sfi16000 := rfl

theorem sfi12000 : Statement .sfi12000 := rfl

theorem sfi11025 : Statement .sfi11025 := rfl

theorem sfi8000 : Statement .sfi8000 := rfl

theorem sfi7350 : Statement .sfi7350 := rfl

theorem sfiCode13 : Statement .sfiCode13 := rfl

theorem sfiCode14 : Statement .sfiCode14 := rfl

theorem sfiCode15 : Statement .sfiCode15 := rfl

theorem sfiUnsupported (rate : Rate) : Statement (.sfiUnsupported rate) := rfl

theorem chc1 : Statement .chc1 := rfl

theorem chc2 : Statement .chc2 := rfl

theorem chc3 : Statement .chc3 := rfl

theorem chc4 : Statement .chc4 := rfl

theorem chc5 : Statement .chc5 := rfl

theorem chc6 : Statement .chc6 := rfl

theorem chc8 : Statement .chc8 := rfl

theorem chcCode0 : Statement .chcCode0 := rfl

theorem chcCount7 : Statement .chcCount7 := rfl

theorem chcUnsupported (count : Count) : Statement (.chcUnsupported count) := rfl

theorem putByte (v : BitVec 8) : Statement (.putByte v) := rfl

theorem putShort (v : BitVec 16) : Statement (.putShort v) := rfl

theorem putInt (v : BitVec 32) : Statement (.putInt v) := rfl

theorem statusOk : Statement .statusOk := rfl

theorem statusUnsupportedParameter : Statement .statusUnsupportedParameter := rfl

theorem statusFrameTooLarge : Statement .statusFrameTooLarge := rfl

theorem statusNoHeader : Statement .statusNoHeader := rfl

end Sys2Proof.Laws.EncodedFormat
end

