-- ==== Sys2Proof/Laws/Safety.lean ====
section
/-! SUPPORT. The claims' own words tied to the machine's: room, and an encodable header. -/

namespace Sys2Proof

open Machine

theorem roomFor_iff {n : Nat} {k : Sink} : RoomFor n k ↔ k.hasRoom n = true := by
  unfold RoomFor Sink.hasRoom; cases k.limit <;> simp

theorem canEncode_iff {s : State} {v : HeaderCodes} : CanEncode s v ↔ validate s = .ok v := validate_ok.symm

theorem sameRegisters_of_advances {s t : State} (h : Advances s t) : SameRegisters s t := by
  obtain ⟨bs, rs, rfl⟩ := h; exact ⟨rfl, rfl, rfl, rfl, rfl⟩

end Sys2Proof
end

