-- ==== Sys2Proof/Laws/Tables.lean ====
section
/-! SUPPORT. What a successful lookup says: the operand and the code are one of the table's pairs. -/

namespace Sys2Proof.Machine

/-- The 13 pairs of R111 to R123, rate and code. -/
def sfiPairs : List (Nat × Nat) :=
  [(96000, 0), (88200, 1), (64000, 2), (48000, 3), (44100, 4), (32000, 5), (24000, 6), (22050, 7), (16000, 8),
   (12000, 9), (11025, 10), (8000, 11), (7350, 12)]

/-- The 7 pairs of R131 to R137, count and code. -/
def chcPairs : List (Nat × Nat) :=
  [(1, 1), (2, 2), (3, 3), (4, 4), (5, 5), (6, 6), (8, 7)]

/-- One test of a lookup chain: it hit, or the rest of the chain answered. -/
theorem ite_some_cases {α : Type} {p : Prop} [Decidable p] {a c : α} {o : Option α}
    (h : (if p then some a else o) = some c) : (p ∧ a = c) ∨ o = some c := by
  by_cases hp : p
  · rw [if_pos hp] at h; exact .inl ⟨hp, Option.some.inj h⟩
  · rw [if_neg hp] at h; exact .inr h

theorem sfi_some_mem {r : Rate} {c : BitVec 4} (h : sfi r = some c) : (r.toNat, c.toNat) ∈ sfiPairs := by
  unfold sfi at h
  iterate 13 (obtain ⟨rfl, rfl⟩ | h := ite_some_cases h; · decide)
  cases h

theorem chc_some_mem {n : Count} {c : BitVec 3} (h : chc n = some c) : (n.toNat, c.toNat) ∈ chcPairs := by
  unfold chc at h
  iterate 7 (obtain ⟨rfl, rfl⟩ | h := ite_some_cases h; · decide)
  cases h

end Sys2Proof.Machine
end

