-- ==== Sys2Proof/Tests/Slice0.lean ====
section
/-! SUPPORT. The author's own tests: ill-formed terms, words written out from the spec's encodings, one-step tests taken
from 95_test_vectors.md, and a witness for the hypotheses of each statement. Expected values are the spec's. -/

namespace Sys2Proof.Tests

open Sys2Proof Sys2Proof.Machine

/-! ### Helpers -/

/-- The next state of an outcome, if it has one. -/
def nextOf : Host.Outcome State Fault Refusal → Option State
  | .next t => some t
  | .fault _ => none
  | .refused _ => none

/-- A state with the given registers constructed and a sink with nothing listed in it. -/
def ready (a : BitVec 1) (r : Rate) (c : Count) (l : Len) (pos : Nat) (limit : Option Nat) : State :=
  { crcAbs := a, sRate := r, chCnt := c, pLen := l, hvalid := true, sink := { mem := [], pos := pos, limit := limit },
    returned := [], pending := [] }

/-- V5's registers on V65's sink, which has exactly room. -/
def v65 : State := ready 1#1 44100#32 2#32 100#32 10 (some 17)

/-- V64: one byte of room less. -/
def v64 : State := ready 1#1 44100#32 2#32 100#32 10 (some 16)

/-- V66: the 9-byte variant, one byte short of room. -/
def v66 : State := ready 0#1 44100#32 2#32 100#32 0 (some 8)

/-- V46: an unsupported rate, on a sink with room. -/
def v46 : State := ready 1#1 13000#32 2#32 100#32 0 none

/-- V60: just after reset, on a sink of 16 bytes. -/
def v60 : State := { State.reset with sink := { mem := [], pos := 0, limit := some 16 } }

/-- Start of V69 to V73: an odd cursor, old bytes around it. -/
def v69 (limit : Nat) : State :=
  { State.reset with sink := { mem := [(2, 0xEE#8), (3, 0xEE#8), (7, 0xEE#8)], pos := 3, limit := some limit } }

/-- The bytes at the first `n` addresses from `p` on, after an outcome. -/
def bytesAt (o : Host.Outcome State Fault Refusal) (p n : Nat) : List (Option Byte) :=
  match nextOf o with
  | some t => (List.range n).map (fun k => t.sink.mem.read (p + k))
  | none => []

/-- The newest thing returned, after an outcome. -/
def answer (o : Host.Outcome State Fault Refusal) : Option Returned :=
  match nextOf o with
  | some t => t.returned.head?
  | none => none

/-- A response without a buffer. -/
def plain (st : Status) : Option Returned := some (.response { status := st, buf := [], rdpos := 0 })

/-- A response with a buffer. -/
def okBuf (bs : List Byte) : Option Returned := some (.response { status := .ok, buf := bs, rdpos := 0 })

/-! ### Well-formedness: a term that each check refuses, and its neighbour that it takes -/

/-- R65, R71: index 13, code 0, and a length below the header size are no header of the block. -/
theorem test_wf_hdr7 :
    (Instr.hdr7 13#4 1#3 7#13).wellFormed = false ∧ (Instr.hdr7 12#4 0#3 7#13).wellFormed = false
    ∧ (Instr.hdr7 12#4 1#3 6#13).wellFormed = false ∧ (Instr.hdr7 12#4 1#3 7#13).wellFormed = true := by decide

theorem test_wf_hdr9 :
    (Instr.hdr9 13#4 7#3 9#13).wellFormed = false ∧ (Instr.hdr9 0#4 0#3 9#13).wellFormed = false
    ∧ (Instr.hdr9 0#4 7#3 8#13).wellFormed = false ∧ (Instr.hdr9 0#4 7#3 9#13).wellFormed = true := by decide

/-- R124: a rate that has an entry is no operand of the not-found row. -/
theorem test_wf_sfiUnsupported :
    (Instr.sfiUnsupported 96000#32).wellFormed = false ∧ (Instr.sfiUnsupported 96001#32).wellFormed = true := by decide

/-- R140: 8 has an entry; 0 and 7 have rows of their own. -/
theorem test_wf_chcUnsupported :
    (Instr.chcUnsupported 8#32).wellFormed = false ∧ (Instr.chcUnsupported 7#32).wellFormed = false
    ∧ (Instr.chcUnsupported 0#32).wellFormed = false ∧ (Instr.chcUnsupported 9#32).wellFormed = true := by decide

/-! ### Decoding: words written out from the spec -/

/-- The request words of programs P1 to P3, and the reserved code (R68). -/
theorem test_decode_requests :
    decode (.req99 0x10000AC440000000200000032#99) = .ok (.construct 1#1 44100#32 2#32 50#32)
    ∧ decode (.req99 0x00000BB8000000006000003E8#99) = .ok (.construct 0#1 48000#32 6#32 1000#32)
    ∧ decode (.req99 0x10000BB800000000600001FF9#99) = .ok (.construct 1#1 48000#32 6#32 8185#32)
    ∧ decode (.req99 0x2000000000000000000000000#99) = .ok .write
    ∧ decode (.req99 0x3FFFFFFFFFFFFFFFFFFFFFFFF#99) = .ok .write
    ∧ decode (.req99 0x4000000000000000000000000#99) = .ok .toBytes
    ∧ decode (.req99 0x6000000000000000000000000#99) = .ok .reservedOp := by
  refine ⟨?_, ?_, ?_, ?_, ?_, ?_, ?_⟩ <;> rfl

/-- The headers of V31, V36, V38 as bits, and headers with a constant bit flipped (R67). -/
theorem test_decode_headers :
    decode (.hdr7 0b11111111111100010100000111000011111111111111111111111100#56) = .ok (.hdr7 0#4 7#3 8191#13)
    ∧ decode (.hdr9 0xFFF050800DBFFC0000#72) = .ok (.hdr9 4#4 2#3 109#13)
    ∧ decode (.hdr9 0xFFF071C0013FFC0000#72) = .ok (.hdr9 12#4 7#3 9#13)
    ∧ decode (.hdr7 0xFFF050800D7FFC#56) = .error .hdr7Constants
    ∧ decode (.hdr7 0x7FF150800D7FFC#56) = .error .hdr7Constants
    ∧ decode (.hdr9 0xFFF050800DBFFC0001#72) = .error .hdr9Constants := by
  refine ⟨?_, ?_, ?_, ?_, ?_, ?_⟩ <;> rfl

/-- R111 to R123 and R125: the 16 codes of the index. -/
theorem test_decode_sfi :
    [0b0000#4, 0b0001#4, 0b0010#4, 0b0011#4, 0b0100#4, 0b0101#4, 0b0110#4, 0b0111#4, 0b1000#4, 0b1001#4, 0b1010#4,
      0b1011#4, 0b1100#4, 0b1101#4, 0b1110#4, 0b1111#4].map sfiRow =
    [.sfi96000, .sfi88200, .sfi64000, .sfi48000, .sfi44100, .sfi32000, .sfi24000, .sfi22050, .sfi16000, .sfi12000,
      .sfi11025, .sfi8000, .sfi7350, .sfiCode13, .sfiCode14, .sfiCode15] := by decide

/-- R131 to R138: the 8 codes of the configuration. -/
theorem test_decode_chc :
    [0b000#3, 0b001#3, 0b010#3, 0b011#3, 0b100#3, 0b101#3, 0b110#3, 0b111#3].map chcRow =
    [.chcCode0, .chc1, .chc2, .chc3, .chc4, .chc5, .chc6, .chc8] := by decide

/-- R153: the 4 status codes. -/
theorem test_decode_status :
    [0b00#2, 0b01#2, 0b10#2, 0b11#2].map statusRow =
    [.statusOk, .statusUnsupportedParameter, .statusFrameTooLarge, .statusNoHeader] := by decide

/-- The rows without an encoding, by the value they act on (R124, R139, R140, R42 to R44). -/
theorem test_decode_values :
    decode (.rateArg 13000#32) = .ok (.sfiUnsupported 13000#32) ∧ decode (.rateArg 44100#32) = .ok .sfi44100
    ∧ decode (.countArg 7#32) = .ok .chcCount7 ∧ decode (.countArg 9#32) = .ok (.chcUnsupported 9#32)
    ∧ decode (.countArg 8#32) = .ok .chc8 ∧ decode (.countArg 0#32) = .ok .chcCode0
    ∧ decode (.put8 0xFC#8) = .ok (.putByte 0xFC#8) ∧ decode (.put16 0xFFF1#16) = .ok (.putShort 0xFFF1#16)
    ∧ decode (.put32 0x50800D7F#32) = .ok (.putInt 0x50800D7F#32) := by
  refine ⟨?_, ?_, ?_, ?_, ?_, ?_, ?_, ?_, ?_⟩ <;> rfl

/-- The host's words: each row by the width the table gives it, and a word with a bit above that width. -/
theorem test_decode_table_words :
    decodeTableWord 99 0x2000000000000000000000000 = some .write
    ∧ decodeTableWord 104 0x4000000000000000000000000 = some .toBytes
    ∧ decodeTableWord 104 (2 ^ 99) = none
    ∧ decodeTableWord 56 0xFFF150800D7FFC = some (.hdr7 4#4 2#3 107#13)
    ∧ decodeTableWord 72 0xFFF050800DBFFC0000 = some (.hdr9 4#4 2#3 109#13)
    ∧ decodeTableWord 8 12 = some .sfi7350 ∧ decodeTableWord 4 13 = some .sfiCode13
    ∧ decodeTableWord 3 7 = some .chc8 ∧ decodeTableWord 2 3 = some .statusNoHeader
    ∧ decodeTableWord 16 0xFC00 = some (.putByte 0x00#8) ∧ decodeTableWord 40 0 = none := by decide

/-- V79: PACK of S1, and the words and bytes of the same header. -/
theorem test_pack_v79 :
    pack 1#1 4#4 2#3 107#13 = 0xFFF150800D7FFC#56 ∧ w16 1#1 = 0xFFF1#16 ∧ w32 4#4 2#3 107#13 = 0x50800D7F#32
    ∧ headerBytes 1#1 4#4 2#3 107#13 = [0xFF#8, 0xF1#8, 0x50#8, 0x80#8, 0x0D#8, 0x7F#8, 0xFC#8] := by decide

/-- V77: DECODE of V31's bytes. -/
theorem test_decode_header_v77 :
    decodeHeader (headerOfBytes [0xFF#8, 0xF1#8, 0x41#8, 0xC3#8, 0xFF#8, 0xFF#8, 0xFC#8]) =
      { syncword := 0xFFF#12, id := 0#1, layer := 0#2, protectionAbsent := 1#1, profile := 1#2, sfi := 0#4,
        privateBit := 0#1, chc := 7#3, originalCopy := 0#1, home := 0#1, copyrightIdBit := 0#1,
        copyrightIdStart := 0#1, frameLength := 8191#13, bufferFullness := 0x7FF#11, rawDataBlocks := 0#2 } := by decide

/-! ### One step: requests -/

/-- V62, V63: values no header can have are stored; all four registers are replaced at once. -/
theorem test_construct :
    (nextOf (exec (.construct 1#1 13000#32 0#32 4294967295#32) v60)).map (fun t => (t.sRate, t.pLen, t.hvalid)) =
      some (13000#32, 4294967295#32, true)
    ∧ (nextOf (exec (.construct 0#1 8000#32 1#32 0#32) v65)).map (fun t => (t.crcAbs, t.sRate, t.chCnt, t.pLen)) =
      some (0#1, 8000#32, 1#32, 0#32) := by decide

/-- V65: an exact fit is admitted. -/
theorem test_write_exact_fit :
    bytesAt (exec .write v65) 9 9 = [none, some 0xFF#8, some 0xF1#8, some 0x50#8, some 0x80#8, some 0x0D#8, some 0x7F#8,
      some 0xFC#8, none]
    ∧ (nextOf (exec .write v65)).map (·.sink.pos) = some 17 ∧ answer (exec .write v65) = plain .ok := by decide

/-- V39 writes nine bytes, the last two zero; V64 and V66 are refused. -/
theorem test_write_crc_and_room :
    bytesAt (exec .write (ready 0#1 48000#32 6#32 8182#32 0 none)) 0 9 = [some 0xFF#8, some 0xF0#8, some 0x4D#8,
      some 0x83#8, some 0xFF#8, some 0xFF#8, some 0xFC#8, some 0x00#8, some 0x00#8]
    ∧ nextOf (exec .write v64) = none ∧ nextOf (exec .write v66) = none := by decide

/-- V67: TOBYTES needs no room in the sink; V38's bytes. -/
theorem test_toBytes :
    answer (exec .toBytes v66) = okBuf [0xFF#8, 0xF0#8, 0x50#8, 0x80#8, 0x0D#8, 0xBF#8, 0xFC#8, 0x00#8, 0x00#8]
    ∧ answer (exec .toBytes (ready 0#1 7350#32 8#32 0#32 0 none)) =
      okBuf [0xFF#8, 0xF0#8, 0x71#8, 0xC0#8, 0x01#8, 0x3F#8, 0xFC#8, 0x00#8, 0x00#8] := by decide

/-- V60, V46, V53, V43, V44 and V57: one failure each, and the priority of R156. -/
theorem test_failures :
    answer (exec .write v60) = plain .noHeader ∧ answer (exec .write v46) = plain .unsupportedParameter
    ∧ answer (exec .toBytes (ready 1#1 44100#32 7#32 100#32 0 none)) = plain .unsupportedParameter
    ∧ answer (exec .write (ready 1#1 44100#32 2#32 4294967295#32 0 none)) = plain .frameTooLarge
    ∧ answer (exec .toBytes (ready 0#1 44100#32 2#32 8183#32 0 none)) = plain .frameTooLarge
    ∧ answer (exec .write (ready 1#1 13000#32 2#32 9000#32 0 none)) = plain .unsupportedParameter := by decide

/-- V68: the reserved request is refused, as a step. -/
theorem test_reservedOp : step (State.reset.withFetchWord 99 0x6000000000000000000000000) = .refused .reservedOp := rfl

/-! ### One step: the other rows -/

/-- V73's bytes by the row HDR7, and V37's by the row HDR9. -/
theorem test_header_rows :
    bytesAt (exec (.hdr7 4#4 2#3 107#13) (v69 16)) 2 9 = [some 0xEE#8, some 0xFF#8, some 0xF1#8, some 0x50#8, some 0x80#8,
      some 0x0D#8, some 0x7F#8, some 0xFC#8, none]
    ∧ bytesAt (exec (.hdr9 4#4 2#3 9#13) State.reset) 0 9 = [some 0xFF#8, some 0xF0#8, some 0x50#8, some 0x80#8,
      some 0x01#8, some 0x3F#8, some 0xFC#8, some 0x00#8, some 0x00#8] := by decide

/-- R111 to R123: key to code. -/
theorem test_sfi_rows :
    [Instr.sfi96000, .sfi88200, .sfi64000, .sfi48000, .sfi44100, .sfi32000, .sfi24000, .sfi22050, .sfi16000, .sfi12000,
      .sfi11025, .sfi8000, .sfi7350].map (fun i => answer (exec i State.reset)) =
    [some (.sfiCode 0#4), some (.sfiCode 1#4), some (.sfiCode 2#4), some (.sfiCode 3#4), some (.sfiCode 4#4),
      some (.sfiCode 5#4), some (.sfiCode 6#4), some (.sfiCode 7#4), some (.sfiCode 8#4), some (.sfiCode 9#4),
      some (.sfiCode 10#4), some (.sfiCode 11#4), some (.sfiCode 12#4)] := by decide

/-- R131 to R137: key to code; the count 8 has code 7. -/
theorem test_chc_rows :
    [Instr.chc1, .chc2, .chc3, .chc4, .chc5, .chc6, .chc8].map (fun i => answer (exec i State.reset)) =
    [some (.chcCode 1#3), some (.chcCode 2#3), some (.chcCode 3#3), some (.chcCode 4#3), some (.chcCode 5#3),
      some (.chcCode 6#3), some (.chcCode 7#3)] := by decide

/-- R71, R124, R138 to R140: what finds no entry raises. -/
theorem test_rows_without_an_entry :
    [Instr.sfiCode13, .sfiCode14, .sfiCode15, .sfiUnsupported 44101#32, .chcCode0, .chcCount7,
      .chcUnsupported 9#32].map (fun i => answer (exec i State.reset)) =
    List.replicate 7 (plain .unsupportedParameter) := by decide

/-- V69, V70, V71: big-endian, at an odd address. -/
theorem test_puts :
    bytesAt (exec (.putByte 0xFC#8) (v69 16)) 2 3 = [some 0xEE#8, some 0xFC#8, none]
    ∧ bytesAt (exec (.putShort 0xFFF1#16) (v69 16)) 2 4 = [some 0xEE#8, some 0xFF#8, some 0xF1#8, none]
    ∧ bytesAt (exec (.putInt 0x50800D7F#32) (v69 16)) 2 6 = [some 0xEE#8, some 0x50#8, some 0x80#8, some 0x0D#8,
      some 0x7F#8, some 0xEE#8] := by decide

/-- R153: each status row answers with its status. -/
theorem test_status_rows :
    [Instr.statusOk, .statusUnsupportedParameter, .statusFrameTooLarge, .statusNoHeader].map
      (fun i => answer (exec i State.reset)) =
    [plain .ok, plain .unsupportedParameter, plain .frameTooLarge, plain .noHeader] := by decide

/-! ### Witnesses: the hypotheses of each statement can be met, clause by clause, at the ends of their ranges -/

theorem witness_decodeOfEncode :
    [Instr.construct 1#1 0#32 0#32 4294967295#32, .hdr7 12#4 7#3 8191#13, .hdr9 0#4 1#3 9#13, .sfiUnsupported 0#32,
      .chcUnsupported 9#32, .chcUnsupported 4294967295#32].all Instr.wellFormed = true := by decide

theorem witness_encodeOfDecode :
    decode (.hdr7 0xFFF150800D7FFC#56) = .ok (.hdr7 4#4 2#3 107#13)
    ∧ decode (.hdr9 0xFFF050800DBFFC0000#72) = .ok (.hdr9 4#4 2#3 109#13)
    ∧ decode (.sfi4 15#4) = .ok .sfiCode15 ∧ decode (.chc3 0#3) = .ok .chcCode0
    ∧ decode (.status2 3#2) = .ok .statusNoHeader
    ∧ decode (.put8 255#8) = .ok (.putByte 255#8) ∧ (TableWord.put8 255#8).format = .sinkPut := by
  refine ⟨?_, ?_, ?_, ?_, ?_, ?_, ?_⟩ <;> rfl

theorem witness_unsupportedRate :
    (13000#32).toNat ∉ [96000, 88200, 64000, 48000, 44100, 32000, 24000, 22050, 16000, 12000, 11025, 8000, 7350]
    ∧ (44101#32).toNat ∉ [96000, 88200, 64000, 48000, 44100, 32000, 24000, 22050, 16000, 12000, 11025, 8000, 7350]
    ∧ (0#32).toNat ∉ [96000, 88200, 64000, 48000, 44100, 32000, 24000, 22050, 16000, 12000, 11025, 8000, 7350]
    ∧ v46.hvalid = true ∧ v46.sRate = 13000#32 := by
  refine ⟨by decide, by decide, by decide, rfl, rfl⟩

theorem witness_rowsWithoutAnEntry :
    (13000#32).toNat ∉ [96000, 88200, 64000, 48000, 44100, 32000, 24000, 22050, 16000, 12000, 11025, 8000, 7350]
    ∧ 9 ≤ (9#32).toNat ∧ 9 ≤ (4294967295#32).toNat := by decide

theorem witness_sfiIsInjective :
    sfi 96000#32 = some 0#4 ∧ sfi 7350#32 = some 12#4 ∧ (7350#32).toNat < (96000#32).toNat := by decide

theorem witness_chcEntries : (2047#13).toNat < 2048 ∧ (7#13).toNat < 2048 := by decide

theorem witness_unsupportedCounts :
    (0#32).toNat = 0 ∧ (7#32).toNat = 7 ∧ 9 ≤ (9#32).toNat ∧ 9 ≤ (4294967295#32).toNat
    ∧ (ready 1#1 44100#32 7#32 100#32 0 none).hvalid = true ∧ (ready 1#1 44100#32 7#32 100#32 0 none).chCnt = 7#32 := by
  decide

theorem witness_chcIsInjective :
    chc 1#32 = some 1#3 ∧ chc 8#32 = some 7#3 ∧ 1 ≤ (1#32).toNat ∧ (6#32).toNat ≤ 6 := by decide

/-- For `WriteAppendsTheHeader` and `WriteIsItsRowsInSequence`: V65 fits exactly; so does V39 in a sink of 9 bytes. -/
theorem witness_write :
    CanEncode v65 ⟨4#4, 2#3, 107#13⟩ ∧ RoomFor (hdrSize v65.crcAbs) v65.sink
    ∧ CanEncode (ready 0#1 48000#32 6#32 8182#32 0 (some 9)) ⟨3#4, 6#3, 8191#13⟩
    ∧ RoomFor (hdrSize 0#1) (ready 0#1 48000#32 6#32 8182#32 0 (some 9)).sink := by
  refine ⟨?_, roomFor_iff.2 rfl, ?_, roomFor_iff.2 rfl⟩ <;> (unfold CanEncode; decide)

/-- No codes make the state after reset encodable. -/
theorem reset_cannot_encode : ¬ ∃ v, CanEncode State.reset v := by
  rintro ⟨v, h, -⟩; cases h

/-- For `ToBytesReturnsTheHeader`, both clauses: V67 on a sink without room, and the state after reset. -/
theorem witness_toBytes : CanEncode v66 ⟨4#4, 2#3, 109#13⟩ ∧ ¬ ∃ v, CanEncode State.reset v := by
  refine ⟨?_, reset_cannot_encode⟩; unfold CanEncode; decide

theorem witness_writeAndToBytesAgree :
    RoomFor (hdrSize v65.crcAbs) v65.sink ∧ RoomFor (hdrSize v46.crcAbs) v46.sink :=
  ⟨roomFor_iff.2 rfl, roomFor_iff.2 rfl⟩

/-- The same registers on two sinks, both with exactly room. -/
theorem witness_emission :
    SameRegisters v65 (ready 1#1 44100#32 2#32 100#32 0 (some 7)) ∧ RoomFor (hdrSize v65.crcAbs) v65.sink
    ∧ RoomFor (hdrSize 1#1) (ready 1#1 44100#32 2#32 100#32 0 (some 7)).sink :=
  ⟨⟨rfl, rfl, rfl, rfl, rfl⟩, roomFor_iff.2 rfl, roomFor_iff.2 rfl⟩

/-- V30's and V39's lengths, the largest of each variant. -/
theorem witness_headerDecodesBack :
    sfi 44100#32 = some 4#4 ∧ chc 2#32 = some 2#3 ∧ (8184#32).toNat ≤ 8191 - hdrSize 1#1
    ∧ sfi 48000#32 = some 3#4 ∧ chc 6#32 = some 6#3 ∧ (8182#32).toNat ≤ 8191 - hdrSize 0#1
    ∧ RoomFor (hdrSize 1#1) v65.sink ∧ RoomFor (hdrSize 0#1) State.reset.sink :=
  ⟨by decide, by decide, by decide, by decide, by decide, by decide, roomFor_iff.2 rfl, roomFor_iff.2 rfl⟩

/-- P4: two headers fit exactly. -/
theorem witness_secondWrite :
    CanEncode (ready 1#1 16000#32 1#32 50#32 3 (some 17)) ⟨8#4, 1#3, 57#13⟩
    ∧ RoomFor (2 * hdrSize 1#1) (ready 1#1 16000#32 1#32 50#32 3 (some 17)).sink := by
  refine ⟨?_, roomFor_iff.2 rfl⟩; unfold CanEncode; decide

/-- For `EachRequestAnswersOnce`, `FailureWritesNothing`, `OnlyConstructWritesRegisters`, `RowsThatStoreNothing`,
`WriteFrame`, `EarlierBytesAreNeverChanged`, `ReturnedIsNeverRead` and `SinkBytesAreNeverRead`: each kind of row has a
next state, the requests with success and with failure. -/
theorem witness_next :
    [exec .write v65, exec .write State.reset, exec .toBytes v66, exec .toBytes v46,
      exec (.construct 0#1 0#32 0#32 0#32) State.reset, exec .sfi7350 v65, exec (.sfiUnsupported 0#32) v65,
      exec .chc8 v65, exec .chcCode0 v65, exec .statusOk v65, exec .statusNoHeader v65].all
      (fun o => (nextOf o).isSome) = true
    ∧ Instr.sfi7350.format = .sfi4 ∧ Instr.chc8.format = .chc3 ∧ Instr.statusOk.format = .status2
    ∧ Instr.write.format = .req99 ∧ Instr.toBytes.format = .req99 := by decide

/-- A failure is the newest response, with a status that is not OK (`FailureWritesNothing`). -/
theorem witness_failureWritesNothing :
    exec .write v46 = .next (v46.respond .unsupportedParameter [])
    ∧ (v46.respond .unsupportedParameter []).returned =
      .response { status := .unsupportedParameter, buf := [], rdpos := 0 } :: v46.returned
    ∧ Status.unsupportedParameter ≠ .ok := ⟨rfl, rfl, by decide⟩

theorem witness_unsupportedParameter :
    v46.hvalid = true ∧ sfi v46.sRate = none
    ∧ (ready 1#1 44100#32 0#32 100#32 0 none).hvalid = true ∧ chc (ready 1#1 44100#32 0#32 100#32 0 none).chCnt = none := by
  decide

/-- V41 and V44 are one byte too long, V30 and V39 just fit, with exactly room. -/
theorem witness_frameTooLarge :
    (ready 1#1 44100#32 2#32 8185#32 0 none).hvalid = true ∧ sfi 44100#32 = some 4#4 ∧ chc 2#32 = some 2#3
    ∧ 8191 < (8185#32).toNat + (if (ready 1#1 44100#32 2#32 8185#32 0 none).crcAbs = 1#1 then 7 else 9)
    ∧ 8191 < (8183#32).toNat + (if (ready 0#1 44100#32 2#32 8183#32 0 none).crcAbs = 1#1 then 7 else 9)
    ∧ (8184#32).toNat + (if (ready 1#1 44100#32 2#32 8184#32 10 (some 17)).crcAbs = 1#1 then 7 else 9) ≤ 8191
    ∧ RoomFor (if (ready 1#1 44100#32 2#32 8184#32 10 (some 17)).crcAbs = 1#1 then 7 else 9)
        (ready 1#1 44100#32 2#32 8184#32 10 (some 17)).sink
    ∧ (8182#32).toNat + (if (ready 0#1 44100#32 2#32 8182#32 0 (some 9)).crcAbs = 1#1 then 7 else 9) ≤ 8191
    ∧ RoomFor (if (ready 0#1 44100#32 2#32 8182#32 0 (some 9)).crcAbs = 1#1 then 7 else 9)
        (ready 0#1 44100#32 2#32 8182#32 0 (some 9)).sink :=
  ⟨rfl, by decide, by decide, by decide, by decide, by decide, roomFor_iff.2 rfl, by decide, roomFor_iff.2 rfl⟩

/-- For `NoHeaderUntilConstruct`: the flag is 0 after reset, CONSTRUCT sets it, a reset of the host clears it. -/
theorem witness_noHeader :
    v60.hvalid = false ∧ (nextOf (exec (.construct 1#1 1#32 1#32 1#32) v60)).map (·.hvalid) = some true
    ∧ v65.hvalid = true ∧ (nextOf (step { v65 with pending := [.act .reset] })).map (·.hvalid) = some false := by decide

/-- Each of the four ways of `FailurePriority` is met by some state. -/
theorem witness_failurePriority :
    State.reset.hvalid = false
    ∧ sfi v46.sRate = none
    ∧ (8191 < frameLen 1#1 8185#32 ∧ sfi 44100#32 ≠ none ∧ chc 2#32 ≠ none)
    ∧ ∃ v, CanEncode v65 v := by
  refine ⟨rfl, by decide, by decide, ⟨4#4, 2#3, 107#13⟩, ?_⟩; unfold CanEncode; decide

/-- A failed WRITE and a failed TOBYTES, and another state with the same registers. -/
theorem witness_failureRepeats :
    exec .write v46 = .next (v46.respond .unsupportedParameter [])
    ∧ exec .toBytes State.reset = .next (State.reset.respond .noHeader [])
    ∧ SameRegisters v46 { v46 with sink := v65.sink } := ⟨rfl, rfl, rfl, rfl, rfl, rfl, rfl⟩

/-- V64 and V66: encodable and one byte short of room. -/
theorem witness_writeWithoutRoom :
    CanEncode v64 ⟨4#4, 2#3, 107#13⟩ ∧ ¬ RoomFor (hdrSize v64.crcAbs) v64.sink
    ∧ CanEncode v66 ⟨4#4, 2#3, 109#13⟩ ∧ ¬ RoomFor (hdrSize v66.crcAbs) v66.sink
    ∧ ¬ ∃ v, CanEncode State.reset v := by
  refine ⟨?_, fun h => absurd (roomFor_iff.1 h) (by decide), ?_, fun h => absurd (roomFor_iff.1 h) (by decide),
    reset_cannot_encode⟩ <;> (unfold CanEncode; decide)

/-- For `ReservedOpIsRefused` and `OnlyTwoRequestsAreRefused`: requests only, and each of the stops is reached. -/
theorem witness_stops :
    RequestsOnly { State.reset with pending := [.word (.req99 (0b11#2 ++ 5#97))] }
    ∧ step { State.reset with pending := [.word (.req99 (0b11#2 ++ 5#97))] } = .refused .reservedOp
    ∧ RequestsOnly { v64 with pending := [.word (.req99 0x2000000000000000000000000#99)] }
    ∧ step { v64 with pending := [.word (.req99 0x2000000000000000000000000#99)] } = .refused .sinkNoRoom
    ∧ RequestsOnly { v64 with pending := [.act (.poke 16 0#8)] }
    ∧ step { v64 with pending := [.act (.poke 16 0#8)] } = .fault .hostOutsideSink := by
  refine ⟨?_, rfl, ?_, rfl, ?_, rfl⟩ <;> (unfold RequestsOnly; decide)

theorem witness_memWrite : (1 = 1 ∨ 1 = 2 ∨ 1 = 4) ∧ (2 = 1 ∨ 2 = 2 ∨ 2 = 4) ∧ (4 = 1 ∨ 4 = 2 ∨ 4 = 4) := by decide

/-- Room for each put exactly, from cursor 3; and one byte less. -/
theorem witness_puts :
    RoomFor 1 (v69 4).sink ∧ RoomFor 2 (v69 5).sink ∧ RoomFor 4 (v69 7).sink
    ∧ ¬ RoomFor 1 (v69 3).sink ∧ ¬ RoomFor 2 (v69 4).sink ∧ ¬ RoomFor 4 (v69 6).sink := by
  refine ⟨roomFor_iff.2 rfl, roomFor_iff.2 rfl, roomFor_iff.2 rfl, ?_, ?_, ?_⟩ <;>
    exact fun h => absurd (roomFor_iff.1 h) (by decide)

/-- The smallest header of each format, with the largest index and smallest code, in a sink that fits it exactly. -/
theorem witness_headerRowsAppend :
    (12#4).toNat ≤ 12 ∧ (1#3 ≠ 0#3) ∧ 7 ≤ (7#13).toNat ∧ RoomFor 7 (v69 10).sink
    ∧ 9 ≤ (9#13).toNat ∧ RoomFor 9 (v69 12).sink :=
  ⟨by decide, by decide, by decide, roomFor_iff.2 rfl, by decide, roomFor_iff.2 rfl⟩

/-- Each code the block never emits, next to the first it does; and one byte short of room. -/
theorem witness_headerRowsStopOrFail :
    12 < (13#4).toNat ∧ (0#3 = 0#3) ∧ (6#13).toNat < 7 ∧ (8#13).toNat < 9
    ∧ (12#4).toNat ≤ 12 ∧ (7#3 ≠ 0#3) ∧ 7 ≤ (7#13).toNat ∧ ¬ RoomFor 7 (v69 9).sink
    ∧ 9 ≤ (9#13).toNat ∧ ¬ RoomFor 9 (v69 11).sink := by
  refine ⟨by decide, rfl, by decide, by decide, by decide, by decide, by decide, ?_, by decide, ?_⟩ <;>
    exact fun h => absurd (roomFor_iff.1 h) (by decide)

/-- Every storing row has a next state that stores, and a header row one that fails. -/
theorem witness_storingRows :
    [exec (.putByte 1#8) (v69 4), exec (.putShort 1#16) (v69 5), exec (.putInt 1#32) (v69 7),
      exec (.hdr7 12#4 1#3 7#13) (v69 10), exec (.hdr9 12#4 1#3 9#13) (v69 12), exec (.hdr7 13#4 1#3 7#13) (v69 10)].all
      (fun o => (nextOf o).isSome) = true := by decide

/-- The three clauses of `StepRunsTheDecodedInstruction`. -/
theorem witness_step :
    decode (.req99 0x2000000000000000000000000#99) = .ok .write
    ∧ ({ v65 with pending := [.word (.req99 0x2000000000000000000000000#99)] } : State).pending =
      .word (.req99 0x2000000000000000000000000#99) :: []
    ∧ decodeTableWord 99 0x2000000000000000000000000 = some .write
    ∧ decode (.hdr7 0#56) = .error .hdr7Constants := ⟨rfl, rfl, rfl, rfl⟩

/-- The clauses of `StepTakesHostActs`: an idle state, and each act next, at the end of a sink of 5 bytes. -/
theorem witness_hostActs :
    State.reset.pending = []
    ∧ ({ (v69 5) with pending := [.act .reset] } : State).pending = .act .reset :: []
    ∧ (({ (v69 5) with pending := [.act (.append [1#8, 2#8])] } : State).pending = .act (.append [1#8, 2#8]) :: []
      ∧ RoomFor [1#8, 2#8].length { (v69 5) with pending := [.act (.append [1#8, 2#8])] }.sink)
    ∧ (({ (v69 5) with pending := [.act (.poke 4 1#8)] } : State).pending = .act (.poke 4 1#8) :: []
      ∧ ∀ l, { (v69 5) with pending := [.act (.poke 4 1#8)] }.sink.limit = some l → 4 < l)
    ∧ ({ (v69 5) with pending := [.act (.seek 9)] } : State).pending = .act (.seek 9) :: []
    ∧ ({ (v69 5) with pending := [.act (.freshSink none)] } : State).pending = .act (.freshSink none) :: [] := by
  refine ⟨rfl, rfl, ⟨rfl, roomFor_iff.2 rfl⟩, ⟨rfl, ?_⟩, rfl, rfl⟩
  rintro l h; cases h; decide

/-- A sink with bytes, and one of each kind of thing the block returns. -/
def busy : State :=
  { (v69 16) with
    returned :=
      [.response
        { status := .ok, buf := [0xFF#8, 0xF1#8, 0x50#8, 0x80#8, 0x0D#8, 0x7F#8, 0xFC#8], rdpos := 0 },
       .sfiCode 12#4, .chcCode 1#3] }

/-- For `StepKeepsTheInvariant` and `StepsAddNoMoves`: a state with bytes, answers and a move, and its step. -/
theorem witness_stepKeepsTheInvariant :
    MachineInv { busy with pending := [.word (.put32 5#32)] }
    ∧ (nextOf (step { busy with pending := [.word (.put32 5#32)] })).isSome = true
    ∧ RequestsOnly { busy with pending := [.act .reset, .word (.req99 0#99)] }
    ∧ (nextOf (step { busy with pending := [.act .reset, .word (.req99 0#99)] })).isSome = true := by
  refine ⟨?_, by decide, ?_, by decide⟩
  · unfold MachineInv; decide
  · unfold RequestsOnly; decide

end Sys2Proof.Tests
end

