-- ==== Sys2Proof/Proofs/State.lean ====
section
/-! SUPPORT. HVALID over operations, acts of the host and steps (R23), and failures of VALIDATE passed on by WRITE and
TOBYTES (R93, R96). -/

namespace Sys2Proof.Machine

/-! ### A failure of VALIDATE -/

theorem validate_of_not_hvalid {s : State} (h : s.hvalid = false) : validate s = .error .noHeader := by
  simp [validate, headerValid, h]

theorem exec_write_of_validate_error {s : State} {st : Status} (h : validate s = .error st) :
    exec .write s = .next (s.respond st []) := by
  simp only [exec, execWrite, h, raise]

theorem exec_toBytes_of_validate_error {s : State} {st : Status} (h : validate s = .error st) :
    exec .toBytes s = .next (s.respond st []) := by
  simp only [exec, execToBytes, h, raise]

/-! ### Who sets and who clears HVALID -/

theorem exec_construct (a : BitVec 1) (r : Rate) (c : Count) (l : Len) (s : State) :
    exec (.construct a r c l) s = .next (((s.setOperands a r c l).setHvalid).respond .ok []) := rfl

theorem Advances.hvalid_eq {s t : State} (h : Advances s t) : t.hvalid = s.hvalid := by
  obtain ⟨-, -, -, -, hv⟩ := sameRegisters_of_advances h
  exact hv

/-- Every instruction either is CONSTRUCT, and the flag is set after it, or leaves the flag alone (R23). -/
theorem exec_hvalid {i : Instr} {s t : State} (h : exec i s = .next t) :
    (∃ a r c l, i = .construct a r c l ∧ t.hvalid = true) ∨ t.hvalid = s.hvalid := by
  obtain ⟨a, r, c, l, rfl, rfl⟩ | hadv := exec_next h
  · exact .inl ⟨a, r, c, l, rfl, by simp⟩
  · exact .inr hadv.hvalid_eq

/-- Every act of the host but its reset leaves the flag alone (R23, R180). -/
theorem hostAct_hvalid {a : HostAct} {s t : State} (h : hostAct a s = .next t) : a = .reset ∨ t.hvalid = s.hvalid := by
  obtain ⟨_, -, -, rfl⟩ | ⟨_, _, -, -, rfl⟩ | ⟨_, -, rfl⟩ | ⟨_, -, rfl⟩ | ⟨rfl, -⟩ := hostAct_next h
  case inr.inr.inr.inr => exact .inl rfl
  all_goals exact .inr (State.setSink_hvalid _ _)

/-- A step that clears the flag takes a reset of the host (R23). -/
theorem reset_pending_of_step_clears_hvalid {s t : State} (h : step s = .next t) (hs : s.hvalid = true)
    (ht : t.hvalid = false) : ∃ rest, s.pending = .act .reset :: rest := by
  have hne : t.hvalid ≠ s.hvalid := by simp [hs, ht]
  obtain ⟨-, rfl⟩ | ⟨a, rest, hp, ha⟩ | ⟨w, i, rest, -, -, hi⟩ := step_next h
  · exact absurd rfl hne
  · obtain rfl | hkeep := hostAct_hvalid ha
    · exact ⟨rest, hp⟩
    · exact absurd hkeep hne
  · obtain ⟨_, _, _, _, -, hset⟩ | hkeep := exec_hvalid hi
    · exact absurd (hset.trans hs.symm) hne
    · exact absurd hkeep hne

/-- Settles O32: a cleared flag makes VALIDATE fail first, and the flag's value after an instruction, an act of the
host or a step is read off from what each of them can do. -/
theorem noHeaderUntilConstruct : Obligations.NoHeaderUntilConstruct := by
  refine ⟨rfl, fun s hs => ?_, fun a r c l s => ?_, fun i s t h hs ht => ?_,
    fun _ _ => reset_pending_of_step_clears_hvalid⟩
  · have hv := validate_of_not_hvalid hs
    exact ⟨exec_write_of_validate_error hv, exec_toBytes_of_validate_error hv⟩
  · exact ⟨_, exec_construct a r c l s, by simp⟩
  · obtain ⟨a, r, c, l, rfl, -⟩ | hkeep := exec_hvalid h
    · exact ⟨a, r, c, l, rfl⟩
    · simp [hkeep, hs] at ht

end Sys2Proof.Machine
end

/-! SUPPORT. The frame of an appended sink and the stores of the puts (R42 to R44), and what WRITE does to the sink:
room, refusal and frame (R45, R48, R93). -/

namespace Sys2Proof.Machine

/-! ### Appending to the sink -/

/-- Bytes appended to the sink leave every byte outside them (R48). -/
theorem sameMemOutside_of_append {s t : State} {bs : List Byte} {n : Nat} (h : t.sink = s.sink.append bs)
    (hlen : bs.length = n) : SameMemOutside s.sink.pos n s t := by
  intro x hx
  rw [← hlen] at hx
  rw [h, Sink.append_mem, Mem.read_writeBytes_outside _ hx]

theorem Sink.read_append (k : Sink) {bs : List Byte} {j : Nat} (h : j < bs.length) :
    (k.append bs).mem.read (k.pos + j) = bs[j]? := by
  rw [Sink.append_mem, Mem.read_writeBytes, if_pos (by omega), Nat.add_sub_cancel_left]

theorem Advances.limit_eq {s t : State} (h : Advances s t) : t.sink.limit = s.sink.limit := by
  obtain ⟨bs, _, rfl⟩ := h
  exact Sink.append_limit s.sink bs

theorem Advances.pending_eq {s t : State} (h : Advances s t) : t.pending = s.pending := by
  obtain ⟨_, _, rfl⟩ := h
  rfl

/-! ### The puts -/

theorem exec_putByte (v : BitVec 8) (s : State) :
    exec (.putByte v) s = withRoom 1 s (s.sink.append (bigEndian 1 v)) := by
  rw [← Sink.putByte_eq_append]; rfl

theorem exec_putShort (v : BitVec 16) (s : State) :
    exec (.putShort v) s = withRoom 2 s (s.sink.append (bigEndian 2 v)) := by
  rw [← Sink.putShort_eq_append]; rfl

theorem exec_putInt (v : BitVec 32) (s : State) :
    exec (.putInt v) s = withRoom 4 s (s.sink.append (bigEndian 4 v)) := by
  rw [← Sink.putInt_eq_append]; rfl

/-- A put of any width, with room: byte `k` of the value stands `k` above the old cursor, and the frame of R42 to R44
holds. -/
theorem withRoom_append_bigEndian (n : Nat) {w : Nat} (v : BitVec w) {s : State} (h : RoomFor n s.sink) :
    ∃ t, withRoom n s (s.sink.append (bigEndian n v)) = .next t
      ∧ (∀ k, k < n → t.sink.mem.read (s.sink.pos + k) = some (v.extractLsb' (8 * (n - 1 - k)) 8))
      ∧ SameMemOutside s.sink.pos n s t ∧ t.sink.pos = s.sink.pos + n ∧ t.sink.limit = s.sink.limit
      ∧ SameRegisters s t ∧ t.returned = s.returned ∧ t.pending = s.pending := by
  have hadv := advances_append s (bigEndian n v)
  have hlen := bigEndian_length n v
  refine ⟨s.setSink (s.sink.append (bigEndian n v)), withRoom_next.2 ⟨roomFor_iff.1 h, rfl⟩, fun k hk => ?_,
    sameMemOutside_of_append rfl hlen, ?_, hadv.limit_eq, sameRegisters_of_advances hadv, rfl, hadv.pending_eq⟩
  · rw [State.setSink_sink, Sink.read_append s.sink (by omega), bigEndian_getElem? v hk]
  · rw [State.setSink_sink, Sink.append_pos, hlen]

/-- Settles O42: each put is the put of its width, and its bytes are read off one address after the other. -/
theorem putsStoreAndAdvance : Obligations.PutsStoreAndAdvance := by
  refine ⟨fun v s hroom => ?_, fun v s hroom => ?_, fun v s hroom => ?_⟩
  · obtain ⟨t, ht, hbytes, hframe⟩ := withRoom_append_bigEndian 1 v hroom
    have h0 : t.sink.mem.read s.sink.pos = some v := by simpa using hbytes 0 (by decide)
    exact ⟨t, (exec_putByte v s).trans ht, h0, hframe⟩
  · obtain ⟨t, ht, hbytes, hframe⟩ := withRoom_append_bigEndian 2 v hroom
    exact ⟨t, (exec_putShort v s).trans ht, hbytes 0 (by decide), hbytes 1 (by decide), hframe⟩
  · obtain ⟨t, ht, hbytes, hframe⟩ := withRoom_append_bigEndian 4 v hroom
    exact ⟨t, (exec_putInt v s).trans ht, hbytes 0 (by decide), hbytes 1 (by decide), hbytes 2 (by decide),
      hbytes 3 (by decide), hframe⟩

/-! ### WRITE -/

/-- After VALIDATE, WRITE depends on the room alone (R93). -/
theorem exec_write_of_validate_ok {s : State} {v : HeaderCodes} (h : validate s = .ok v) :
    exec .write s = if s.sink.hasRoom (hdrSize s.crcAbs)
      then .next ((s.setSink (s.sink.append (wordBytes s.crcAbs v.sfi v.chc v.fl))).respond .ok [])
      else .refused .sinkNoRoom := by
  simp only [exec, execWrite, h, emitHeader_eq_append]

/-- Settles O36: VALIDATE's answer decides which of the two clauses WRITE is in, and only its success looks at the
room. -/
theorem writeWithoutRoomIsRefused : Obligations.WriteWithoutRoomIsRefused := by
  refine ⟨fun s v henc hroom => ?_, fun s hnone => ?_⟩
  · rw [exec_write_of_validate_ok (canEncode_iff.1 henc), if_neg (mt roomFor_iff.2 hroom)]
  · cases hv : validate s with
    | ok v => exact absurd ⟨v, canEncode_iff.2 hv⟩ hnone
    | error st => exact ⟨st, validate_error_ne_ok hv, exec_write_of_validate_error hv⟩

/-- CONSTRUCT and TOBYTES leave the whole sink (R48). -/
theorem exec_sink_of_toBytes_or_construct {i : Instr} {s t : State}
    (hi : i = .toBytes ∨ ∃ a r c l, i = .construct a r c l) (h : exec i s = .next t) : t.sink = s.sink := by
  obtain rfl | ⟨a, r, c, l, rfl⟩ := hi
  · obtain ⟨v, -, rfl⟩ | ⟨st, -, rfl⟩ := execToBytes_next h <;> exact State.respond_sink s _ _
  · rw [exec_construct] at h
    cases h
    rfl

/-- Settles O49: the limit, the registers and the moves stay because WRITE only appends and hands back; the status in
the response is OK in its first case alone. -/
theorem writeFrame : Obligations.WriteFrame := by
  refine ⟨fun s t h => ?_, fun _ _ _ => exec_sink_of_toBytes_or_construct⟩
  have hadv : Advances s t := advances_write h
  refine ⟨hadv.limit_eq, sameRegisters_of_advances hadv, hadv.pending_eq, ?_⟩
  obtain ⟨v, -, -, rfl⟩ | ⟨st, hv, rfl⟩ := execWrite_next h
  · have hlen := wordBytes_length s.crcAbs v.sfi v.chc v.fl
    exact ⟨.ok, rfl, fun _ => ⟨sameMemOutside_of_append rfl hlen, congrArg (s.sink.pos + ·) hlen⟩,
      fun hne => absurd rfl hne⟩
  · exact ⟨st, rfl, fun hok => absurd hok (validate_error_ne_ok hv), fun _ => rfl⟩

end Sys2Proof.Machine

/-! SUPPORT. Request words by their operation code (R68), the responses of the requests (R69), and the step of the
reserved code (R70). -/

namespace Sys2Proof

open Machine

/-! ### Decoding a request word -/

theorem decodeRequest_of_op_zero {r : BitVec 99} (h : r.extractLsb' 97 2 = 0#2) : decodeRequest r =
    .construct (r.extractLsb' 96 1) (r.extractLsb' 64 32) (r.extractLsb' 32 32) (r.extractLsb' 0 32) := by
  rw [decodeRequest, h]; rfl

theorem decode_requestWord_one (x : BitVec 97) : decode (requestWord 1#2 x) = .ok .write := by
  rw [requestWord, decode, decodeRequest, BitVec.extractLsb'_append_eq_left]; rfl

theorem decode_requestWord_two (x : BitVec 97) : decode (requestWord 2#2 x) = .ok .toBytes := by
  rw [requestWord, decode, decodeRequest, BitVec.extractLsb'_append_eq_left]; rfl

theorem decode_requestWord_three (x : BitVec 97) : decode (requestWord 3#2 x) = .ok .reservedOp := by
  rw [requestWord, decode, decodeRequest, BitVec.extractLsb'_append_eq_left]; rfl

/-- Each operand of CONSTRUCT is read from the place where it was laid down (R68). -/
theorem decodeRequest_construct (a : BitVec 1) (r : Rate) (c : Count) (l : Len) :
    decodeRequest (0#2 ++ a ++ r ++ c ++ l) = .construct a r c l := by
  have hop : (0#2 ++ a ++ r ++ c ++ l).extractLsb' 97 2 = 0#2 := by
    simp only [BitVec.extractLsb'_append_eq_of_le, BitVec.extractLsb'_eq_self, Nat.reduceLeDiff, Nat.reduceSub]
  rw [decodeRequest_of_op_zero hop]
  simp only [BitVec.extractLsb'_append_eq_of_le, BitVec.extractLsb'_append_eq_right, Nat.reduceLeDiff, Nat.reduceSub]

/-- Settles O1: the operation code is the top two bits of the word, and below it the operands are read one by one or
not at all. -/
theorem requestWordsDecode : Obligations.RequestWordsDecode :=
  ⟨fun a r c l => congrArg Except.ok (decodeRequest_construct a r c l), decode_requestWord_one,
    decode_requestWord_two, decode_requestWord_three⟩

/-- The rows of the request format are the three requests and the reserved code (R68). -/
theorem request_cases {i : Instr} (h : i.format = .req99) :
    (∃ a r c l, i = .construct a r c l) ∨ i = .write ∨ i = .toBytes ∨ i = .reservedOp := by
  cases i with
  | construct a r c l => exact .inl ⟨a, r, c, l, rfl⟩
  | write => exact .inr (.inl rfl)
  | toBytes => exact .inr (.inr (.inl rfl))
  | reservedOp => exact .inr (.inr (.inr rfl))
  | _ => cases h

end Sys2Proof

namespace Sys2Proof.Machine

/-! ### The response of a request -/

/-- WRITE hands back one response, and never a buffer. -/
theorem returned_of_execWrite {s t : State} (h : execWrite s = .next t) :
    ∃ st, t.returned = .response { status := st, buf := [], rdpos := 0 } :: s.returned := by
  obtain ⟨v, -, -, rfl⟩ | ⟨st, -, rfl⟩ := execWrite_next h
  · exact ⟨.ok, rfl⟩
  · exact ⟨st, rfl⟩

/-- Settles O29: only the success of TOBYTES hands back bytes, those of one header; its failure is never OK. -/
theorem eachRequestAnswersOnce : Obligations.EachRequestAnswersOnce := by
  intro i s t h hformat
  obtain ⟨a, r, c, l, rfl⟩ | rfl | rfl | rfl := request_cases hformat
  case inl =>
    cases h
    exact ⟨_, rfl, rfl, .inl ⟨rfl, nofun⟩⟩
  case inr.inl =>
    obtain ⟨st, hret⟩ := returned_of_execWrite h
    exact ⟨_, hret, rfl, .inl ⟨rfl, nofun⟩⟩
  case inr.inr.inl =>
    obtain ⟨v, -, rfl⟩ | ⟨st, hv, rfl⟩ := execToBytes_next h
    · exact ⟨_, rfl, rfl, .inr ⟨headerBytes_length s.crcAbs v.sfi v.chc v.fl, rfl, rfl⟩⟩
    · exact ⟨_, rfl, rfl, .inl ⟨rfl, fun ⟨_, hok⟩ => validate_error_ne_ok hv hok⟩⟩
  case inr.inr.inr => cases h

/-! ### The step of a word -/

/-- A word that decodes is run as the instruction it stands for, with the move taken off the list (R47). -/
theorem step_of_decode {s : State} {w : TableWord} {i : Instr} {rest : List HostMove}
    (hp : s.pending = .word w :: rest) (hd : decode w = .ok i) : step s = exec i { s with pending := rest } := by
  simp only [step, fetch, hp, hd]

theorem exec_reservedOp (s : State) : exec .reservedOp s = .refused .reservedOp := rfl

/-- Settles O37: the operand bits are not decoded, and the reserved request has no next state. -/
theorem reservedOpIsRefused : Obligations.ReservedOpIsRefused :=
  ⟨exec_reservedOp, fun _ ignored _ hp => (step_of_decode hp (decode_requestWord_three ignored)).trans
    (exec_reservedOp _)⟩

end Sys2Proof.Machine

/-! SUPPORT. The bytes of a header: those of the three words are those of PACK (R63, R66, R95), and DECODE of them gives
the fields back (R74). -/

namespace Sys2Proof.Machine

/-! ### Big-endian bytes -/

/-- The bytes of two values side by side are the bytes of the first, then those of the second (R41). -/
theorem bigEndian_append {m n : Nat} {w u : Nat} (x : BitVec w) (y : BitVec u) (hu : u = 8 * n) :
    bigEndian (m + n) (x ++ y) = bigEndian m x ++ bigEndian n y := by
  rw [bigEndian, List.range_add, List.map_append, List.map_map]
  congr 1
  · refine List.map_congr_left fun k hk => ?_
    have hk : k < m := List.mem_range.1 hk
    rw [BitVec.extractLsb'_append_eq_of_le (by omega)]
    congr 1
    omega
  · refine List.map_congr_left fun k hk => ?_
    have hk : k < n := List.mem_range.1 hk
    rw [Function.comp_apply, BitVec.extractLsb'_append_eq_of_add_le (by omega)]
    congr 1
    omega

/-- One more byte is the lowest one, at the end. -/
theorem bigEndian_succ (n : Nat) {w : Nat} (v : BitVec w) :
    bigEndian (n + 1) v = bigEndian n (v >>> 8) ++ [v.extractLsb' 0 8] := by
  rw [bigEndian, List.range_succ, List.map_append, List.map_singleton, Nat.add_sub_cancel, Nat.sub_self]
  congr 1
  refine List.map_congr_left fun k hk => ?_
  have hk : k < n := List.mem_range.1 hk
  refine BitVec.eq_of_getLsbD_eq fun i hi => ?_
  have hshift : 8 + (8 * (n - 1 - k) + i) = 8 * (n - k) + i := by omega
  simp only [BitVec.getLsbD_extractLsb', BitVec.getLsbD_ushiftRight, hshift]

/-- One more byte of a header shifts the bits before it up (R74). -/
theorem headerOfBytes_append_singleton {bs : List Byte} (b : Byte) (h : bs.length < 7) :
    headerOfBytes (bs ++ [b]) = headerOfBytes bs <<< 8 ||| b.setWidth 56 := by
  rw [headerOfBytes, headerOfBytes, List.take_of_length_le (by simp; omega), List.take_of_length_le (by omega),
    List.foldl_append, List.foldl_cons, List.foldl_nil]

/-- The bytes of a value, read as header bits, are the value's low bits. -/
theorem getLsbD_headerOfBytes_bigEndian {n : Nat} (hn : n ≤ 7) {w : Nat} (v : BitVec w) (i : Nat) :
    (headerOfBytes (bigEndian n v)).getLsbD i = (decide (i < 8 * n) && v.getLsbD i) := by
  induction n generalizing v i with
  | zero => simp [bigEndian, headerOfBytes]
  | succ n ih =>
    rw [bigEndian_succ, headerOfBytes_append_singleton _ (by simpa using hn)]
    simp only [BitVec.getLsbD_or, BitVec.getLsbD_shiftLeft, BitVec.getLsbD_setWidth, BitVec.getLsbD_extractLsb']
    by_cases h8 : i < 8
    · have h56 : i < 56 := by omega
      have hsucc : i < 8 * (n + 1) := by omega
      simp [h8, h56, hsucc]
    · have hsub : 8 + (i - 8) = i := by omega
      have hlt : i - 8 < 8 * n ↔ i < 8 * (n + 1) := by omega
      have h56 : i < 8 * (n + 1) → i < 56 := by omega
      rw [ih (by omega), BitVec.getLsbD_ushiftRight, hsub]
      by_cases hi : i < 8 * (n + 1)
      · simp [h8, hlt, hi, h56 hi]
      · simp [h8, hlt, hi]

/-- The header bits of R74 are the 56 bits whose bytes come first; what follows them is not read. -/
theorem headerOfBytes_bigEndian_append (h : BitVec 56) (rest : List Byte) :
    headerOfBytes (bigEndian 7 h ++ rest) = h := by
  have htake : headerOfBytes (bigEndian 7 h ++ rest) = headerOfBytes (bigEndian 7 h) := by
    rw [headerOfBytes, headerOfBytes, List.take_left' (bigEndian_length 7 h),
      List.take_of_length_le (bigEndian_length 7 h).le]
  refine BitVec.eq_of_getLsbD_eq fun i hi => ?_
  rw [htake, getLsbD_headerOfBytes_bigEndian (Nat.le_refl 7)]
  simp [hi]

/-! ### The three words of a header -/

/-- W32 is its fields side by side (R63). -/
theorem w32_eq_fields (f : BitVec 4) (c : BitVec 3) (fl : BitVec 13) :
    w32 f c fl = 1#2 ++ f ++ 0#1 ++ c ++ 0#4 ++ fl ++ 0x1F#5 := by
  refine BitVec.eq_of_getLsbD_eq fun i hi => ?_
  simp only [w32, BitVec.getLsbD_append, BitVec.getLsbD_or, BitVec.getLsbD_shiftLeft, BitVec.getLsbD_setWidth]
  interval_cases i <;> simp

/-- W16 is the syncword, the constant fields and the CRC flag side by side (R63). -/
theorem w16_eq_fields (pa : BitVec 1) : w16 pa = 0xFFF#12 ++ 0#1 ++ 0#2 ++ pa := by
  revert pa; decide

/-- PACK is the three words side by side (R63, R66). -/
theorem pack_eq_words (pa : BitVec 1) (f : BitVec 4) (c : BitVec 3) (fl : BitVec 13) :
    pack pa f c fl = w16 pa ++ w32 f c fl ++ b6 := by
  refine BitVec.eq_of_getLsbD_eq fun i hi => ?_
  rw [pack_getLsbD, w16_eq_fields, w32_eq_fields, b6]
  simp only [BitVec.getLsbD_append]
  interval_cases i <;> simp

/-- The puts of R93 store ENCODE's bytes (R95). -/
theorem wordBytes_eq_headerBytes (pa : BitVec 1) (f : BitVec 4) (c : BitVec 3) (fl : BitVec 13) :
    wordBytes pa f c fl = headerBytes pa f c fl := by
  have h7 : bigEndian 7 (pack pa f c fl) = bigEndian 2 (w16 pa) ++ bigEndian 4 (w32 f c fl) ++ bigEndian 1 b6 := by
    rw [pack_eq_words, bigEndian_append (m := 6) (n := 1) _ b6 rfl,
      bigEndian_append (m := 2) (n := 4) _ (w32 f c fl) rfl]
  rw [wordBytes, headerBytes, h7]

theorem seven_le_hdrSize (pa : BitVec 1) : 7 ≤ hdrSize pa := by
  obtain ⟨-, h⟩ | ⟨-, h⟩ := hdrSize_cases pa <;> omega

/-- The seven bytes of PACK come first in a header (R95). -/
theorem headerBytes_getElem?_of_lt_seven (pa : BitVec 1) (f : BitVec 4) (c : BitVec 3) (fl : BitVec 13) {k : Nat}
    (h : k < 7) : (headerBytes pa f c fl)[k]? = (bigEndian 7 (pack pa f c fl))[k]? :=
  List.getElem?_append_left (by simpa using h)

end Sys2Proof.Machine

namespace Sys2Proof

/-- DECODE (R74) gives back the fields that PACK (R66) was given, and the constant ones of R61. -/
theorem decodeHeader_pack (pa : BitVec 1) (f : BitVec 4) (c : BitVec 3) (fl : BitVec 13) :
    decodeHeader (pack pa f c fl) =
      { syncword := 0xFFF#12, id := 0#1, layer := 0#2, protectionAbsent := pa, profile := 1#2, sfi := f,
        privateBit := 0#1, chc := c, originalCopy := 0#1, home := 0#1, copyrightIdBit := 0#1, copyrightIdStart := 0#1,
        frameLength := fl, bufferFullness := 0x7FF#11, rawDataBlocks := 0#2 } := by
  rw [pack_eq_fields, decodeHeader]
  simp only [BitVec.extractLsb'_append_eq_of_le, BitVec.extractLsb'_append_eq_right, BitVec.extractLsb'_eq_self,
    Nat.reduceLeDiff, Nat.reduceSub]

end Sys2Proof

/-! SUPPORT. The header requests CONSTRUCT, WRITE and TOBYTES (R90 to R99). -/

namespace Sys2Proof.Machine

/-- Settles O20: CONSTRUCT is the three updates of the state one after the other. -/
theorem constructLoadsTheRegisters : Obligations.ConstructLoadsTheRegisters := exec_construct

/-- Settles O21: the size is the table's, and the sum is one of natural numbers. -/
theorem frameLengthIsTheExactSum : Obligations.FrameLengthIsTheExactSum :=
  ⟨rfl, rfl, fun _ => ⟨rfl, rfl⟩⟩

/-! ### WRITE and TOBYTES by VALIDATE's answer -/

/-- WRITE of an encodable header with room appends ENCODE's bytes and answers OK (R93, R95). -/
theorem exec_write_of_room {s : State} {v : HeaderCodes} (hv : validate s = .ok v)
    (hroom : RoomFor (hdrSize s.crcAbs) s.sink) :
    exec .write s =
      .next ((s.setSink (s.sink.append (headerBytes s.crcAbs v.sfi v.chc v.fl))).respond .ok []) := by
  rw [exec_write_of_validate_ok hv, if_pos (roomFor_iff.1 hroom), wordBytes_eq_headerBytes]

theorem exec_toBytes_of_validate_ok {s : State} {v : HeaderCodes} (h : validate s = .ok v) :
    exec .toBytes s = .next (s.respond .ok (headerBytes s.crcAbs v.sfi v.chc v.fl)) := by
  simp only [exec, execToBytes, h]

/-- VALIDATE reads the registers and HVALID, and nothing else (R92, R98). -/
theorem validate_eq_of_sameRegisters {s t : State} (h : SameRegisters s t) : validate t = validate s := by
  cases s
  cases t
  obtain ⟨rfl, rfl, rfl, rfl, rfl⟩ := h
  rfl

theorem not_canEncode_iff {s : State} : (¬ ∃ v, CanEncode s v) ↔ ∃ st, validate s = .error st := by
  simp only [canEncode_iff]
  cases validate s <;> simp

/-! ### What the requests emit -/

/-- In a fresh sink exactly the appended bytes can be read. -/
theorem Sink.read_append_fresh (limit : Option Nat) (bs : List Byte) (k : Nat) :
    (Sink.append { mem := [], pos := 0, limit := limit } bs).mem.read k = bs[k]? := by
  by_cases hk : k < bs.length
  · simpa using Sink.read_append { mem := [], pos := 0, limit := limit } hk
  · rw [Sink.append_mem, Mem.read_writeBytes_outside _ (by simp; omega), List.getElem?_eq_none (by omega)]
    rfl

/-- Settles O23: a fresh sink of HDRSIZE bytes has just the room for the header, and a failure of VALIDATE is passed on
by both requests. -/
theorem toBytesReturnsTheHeader : Obligations.ToBytesReturnsTheHeader := by
  refine ⟨fun s v henc => ?_, fun s hnone => ?_⟩
  · have hlen := headerBytes_length s.crcAbs v.sfi v.chc v.fl
    have hroom : RoomFor (hdrSize s.crcAbs) { mem := [], pos := 0, limit := some (hdrSize s.crcAbs) } :=
      roomFor_iff.2 (by simp [Sink.hasRoom])
    refine ⟨exec_toBytes_of_validate_ok (canEncode_iff.1 henc), hlen, _,
      exec_write_of_room (s := { s with sink := _ }) (canEncode_iff.1 henc) hroom, ?_, fun k => ?_⟩
    · simp [hlen]
    · exact Sink.read_append_fresh _ _ k
  · obtain ⟨st, hv⟩ := not_canEncode_iff.1 hnone
    exact ⟨st, validate_error_ne_ok hv, exec_toBytes_of_validate_error hv, exec_write_of_validate_error hv⟩

/-- Settles O25: VALIDATE gives both states the same answer, and all that the requests emit is made of it and of the CRC
flag. -/
theorem emissionDependsOnTheRegistersAlone : Obligations.EmissionDependsOnTheRegistersAlone := by
  intro s t hsame
  have hvalidate := validate_eq_of_sameRegisters hsame
  obtain ⟨hcrc, -⟩ := hsame
  cases hv : validate s with
  | error st =>
    have hvt := hvalidate.trans hv
    exact ⟨⟨_, exec_toBytes_of_validate_error hv, exec_toBytes_of_validate_error hvt⟩, fun _ _ =>
      ⟨0, _, _, exec_write_of_validate_error hv, exec_write_of_validate_error hvt, rfl, rfl, nofun⟩⟩
  | ok v =>
    have hvt := hvalidate.trans hv
    have hbytes := exec_toBytes_of_validate_ok hvt
    rw [hcrc] at hbytes
    refine ⟨⟨_, exec_toBytes_of_validate_ok hv, hbytes⟩, fun hs ht => ?_⟩
    have hwrite := exec_write_of_room hvt ht
    rw [hcrc] at hwrite
    refine ⟨_, _, _, exec_write_of_room hv hs, hwrite, rfl, rfl, fun k hk => ?_⟩
    exact (Sink.read_append s.sink hk).trans (Sink.read_append t.sink hk).symm

/-- Settles O26: CONSTRUCT's operands pass VALIDATE, so WRITE appends ENCODE's bytes; the first seven are those of PACK,
which DECODE inverts. -/
theorem headerDecodesBack : Obligations.HeaderDecodesBack := by
  intro a r c l f g s hf hg hl hroom
  have hle : l.toNat + hdrSize a ≤ 8191 := by
    obtain ⟨-, h⟩ | ⟨-, h⟩ := hdrSize_cases a <;> omega
  have hcan : CanEncode (((s.setOperands a r c l).setHvalid).respond .ok [])
      { sfi := f, chc := g, fl := BitVec.ofNat 13 (l.toNat + hdrSize a) } := ⟨rfl, hf, hg, hle, rfl⟩
  have hwrite := exec_write_of_room (canEncode_iff.1 hcan) hroom
  refine ⟨_, _, bigEndian 7 (pack a f g (BitVec.ofNat 13 (l.toNat + hdrSize a))), exec_construct a r c l s, hwrite, rfl,
    bigEndian_length 7 _, fun k hk => ?_, ?_, validate_fl_toNat (canEncode_iff.1 hcan)⟩
  · have hsize : k < (headerBytes a f g (BitVec.ofNat 13 (l.toNat + hdrSize a))).length := by
      rw [headerBytes_length]
      exact hk.trans_le (seven_le_hdrSize a)
    exact (Sink.read_append s.sink hsize).trans (headerBytes_getElem?_of_lt_seven _ _ _ _ hk)
  · rw [← decodeHeader_pack, ← List.append_nil (bigEndian 7 _), headerOfBytes_bigEndian_append]

end Sys2Proof.Machine

/-! SUPPORT. The SamplingFrequencyIndex table (R110 to R125): its codes in the header, what is no key, and what is no
code. -/

namespace Sys2Proof.Machine

/-! ### The codes in the header -/

/-- Byte 2 of a header holds the profile, the index code, the private bit and the top bit of the configuration (R62). -/
theorem headerBytes_getElem?_two (pa : BitVec 1) (f : BitVec 4) (c : BitVec 3) (fl : BitVec 13) :
    (headerBytes pa f c fl)[2]? = some (1#2 ++ f ++ 0#1 ++ c.extractLsb' 2 1) := by
  rw [headerBytes_getElem?_of_lt_seven pa f c fl (by decide), bigEndian_getElem? _ (by decide), pack_eq_fields]
  congr 1
  refine BitVec.eq_of_getLsbD_eq fun i hi => ?_
  simp only [BitVec.getLsbD_append, BitVec.getLsbD_extractLsb']
  interval_cases i <;> simp

/-- In stereo, below the index code, byte 2 is zero. -/
theorem headerBytes_stereo_getElem?_two (pa : BitVec 1) (f : BitVec 4) (fl : BitVec 13) :
    (headerBytes pa f 2#3 fl)[2]? = some (1#2 ++ f ++ 0#2) := by
  rw [headerBytes_getElem?_two, BitVec.append_assoc]
  rfl

/-- Settles O9: the lookups are run, and byte 2 of a stereo header depends on the code alone. -/
theorem sfiEntriesFrom96000To24000 : Obligations.SfiEntriesFrom96000To24000 := by
  refine ⟨by decide, fun pa fl => ?_⟩
  simp only [headerBytes_stereo_getElem?_two]
  decide

/-- Settles O10: the lookups are run, and byte 2 of a stereo header depends on the code
alone. -/
theorem sfiEntriesFrom22050To7350 : Obligations.SfiEntriesFrom22050To7350 := by
  refine ⟨by decide, fun pa fl => ?_⟩
  simp only [headerBytes_stereo_getElem?_two]
  decide

/-! ### Rates that are no key -/

theorem sfi_eq_none_of_not_mem {r : Rate} (h : r.toNat ∉ sfiPairs.map Prod.fst) : sfi r = none :=
  Option.eq_none_iff_forall_ne_some.2 fun _ hc => h (List.mem_map_of_mem (sfi_some_mem hc))

theorem validate_of_sfi_eq_none {s : State} (h : s.hvalid = true) (hsfi : sfi s.sRate = none) :
    validate s = .error .unsupportedParameter := by
  simp [validate, headerValid, h, hsfi]

/-- Settles O12: a rate with a code is a key, and VALIDATE's failure at the lookup is passed on by both requests. -/
theorem unsupportedRateRaises : Obligations.UnsupportedRateRaises := by
  intro rate hkey
  have hnone : sfi rate = none := sfi_eq_none_of_not_mem hkey
  refine ⟨hnone, ?_⟩
  rintro s hs rfl
  have hv := validate_of_sfi_eq_none hs hnone
  exact ⟨exec_write_of_validate_error hv, exec_toBytes_of_validate_error hv⟩

/-! ### Codes that are never returned -/

theorem sfi_ne_some_of_twelve_lt (r : Rate) {c : BitVec 4} (h : 12 < c.toNat) : sfi r ≠ some c := by
  intro hc
  have hcodes : ∀ p ∈ sfiPairs, p.2 ≤ 12 := by decide
  exact absurd (hcodes _ (sfi_some_mem hc)) (Nat.not_le_of_lt h)

/-- Settles O13: the codes of the table end at 12. -/
theorem neverEmittedIndexCodes : Obligations.NeverEmittedIndexCodes := fun rate =>
  ⟨sfi_ne_some_of_twelve_lt rate (by decide), sfi_ne_some_of_twelve_lt rate (by decide),
    sfi_ne_some_of_twelve_lt rate (by decide)⟩

end Sys2Proof.Machine

/-! SUPPORT. The ChannelConfiguration table (R130 to R140): counts that are no key, codes that are never returned, and
the codes in the header. -/

namespace Sys2Proof.Machine

/-! ### Counts that are no key -/

theorem chc_eq_none_of_not_mem {n : Count} (h : n.toNat ∉ chcPairs.map Prod.fst) : chc n = none :=
  Option.eq_none_iff_forall_ne_some.2 fun _ hc => h (List.mem_map_of_mem (chc_some_mem hc))

theorem chc_ne_some_zero (n : Count) : chc n ≠ some 0#3 := by
  intro hc
  have hcodes : ∀ p ∈ chcPairs, p.2 ≠ 0 := by decide
  exact hcodes _ (chc_some_mem hc) rfl

/-- A count without a code fails whether or not the rate has one: both lookups have the same failure (R92). -/
theorem validate_of_chc_eq_none {s : State} (h : s.hvalid = true) (hchc : chc s.chCnt = none) :
    validate s = .error .unsupportedParameter := by
  cases hsfi : sfi s.sRate with
  | none => exact validate_of_sfi_eq_none h hsfi
  | some f => simp [validate, headerValid, h, hsfi, hchc]

/-- Settles O18: the counts named are none of the keys, and VALIDATE's failure at the lookup is passed on by both
requests. -/
theorem unsupportedCountsRaise : Obligations.UnsupportedCountsRaise := by
  refine ⟨fun count hcount => ?_, chc_ne_some_zero⟩
  have hkey : count.toNat ∉ chcPairs.map Prod.fst := by
    simp only [chcPairs, List.map_cons, List.map_nil, List.mem_cons, List.not_mem_nil, or_false]
    omega
  have hnone : chc count = none := chc_eq_none_of_not_mem hkey
  refine ⟨hnone, ?_⟩
  rintro s hs rfl
  have hv := validate_of_chc_eq_none hs hnone
  exact ⟨exec_write_of_validate_error hv, exec_toBytes_of_validate_error hv⟩

/-! ### The codes in the header -/

/-- Byte 3 of a header holds the two low bits of the configuration, four constant bits and the top of the frame length
(R62). -/
theorem headerBytes_getElem?_three (pa : BitVec 1) (f : BitVec 4) (c : BitVec 3) (fl : BitVec 13) :
    (headerBytes pa f c fl)[3]? = some (c.extractLsb' 0 2 ++ 0#4 ++ fl.extractLsb' 11 2) := by
  rw [headerBytes_getElem?_of_lt_seven pa f c fl (by decide), bigEndian_getElem? _ (by decide), pack_eq_fields]
  congr 1
  refine BitVec.eq_of_getLsbD_eq fun i hi => ?_
  simp only [BitVec.getLsbD_append, BitVec.getLsbD_extractLsb']
  interval_cases i <;> simp

theorem extractLsb'_eleven_two_eq_zero {fl : BitVec 13} (h : fl.toNat < 2048) : fl.extractLsb' 11 2 = 0#2 := by
  apply BitVec.eq_of_toNat_eq
  rw [BitVec.extractLsb'_toNat, Nat.shiftRight_eq_div_pow, Nat.div_eq_of_lt h]
  rfl

/-- Below a frame length of 2048, bytes 2 and 3 depend on the two codes alone. -/
theorem headerBytes_two_three_of_lt (pa : BitVec 1) (f : BitVec 4) (c : BitVec 3) {fl : BitVec 13}
    (h : fl.toNat < 2048) : ((headerBytes pa f c fl).drop 2).take 2 =
      [1#2 ++ f ++ 0#1 ++ c.extractLsb' 2 1, c.extractLsb' 0 2 ++ 0#4 ++ 0#2] := by
  simp [List.take_add_one, headerBytes_getElem?_two, headerBytes_getElem?_three, extractLsb'_eleven_two_eq_zero h]

/-- Settles O16: the lookups are run, and bytes 2 and 3 of the headers depend on the codes alone. -/
theorem chcEntriesReturnTheirCodes : Obligations.ChcEntriesReturnTheirCodes := by
  refine ⟨by decide, fun pa fl hfl => ?_⟩
  simp only [headerBytes_two_three_of_lt pa _ _ hfl]
  decide

end Sys2Proof.Machine

/-! SUPPORT. Failures (R150 to R156): which check of VALIDATE fails, that the status of a failed request tells VALIDATE's
answer, and that a failed response is all an instruction leaves behind. -/

namespace Sys2Proof.Machine

/-! ### Failing requests -/

theorem exec_of_validate_error {i : Instr} (hi : i = .write ∨ i = .toBytes) {s : State} {st : Status}
    (h : validate s = .error st) : exec i s = .next (s.respond st []) := by
  obtain rfl | rfl := hi
  · exact exec_write_of_validate_error h
  · exact exec_toBytes_of_validate_error h

/-- Either lookup without an entry fails VALIDATE, whatever the other one and the frame length are (R92). -/
theorem validate_of_lookup_eq_none {s : State} (h : s.hvalid = true) (hnone : sfi s.sRate = none ∨ chc s.chCnt = none) :
    validate s = .error .unsupportedParameter :=
  hnone.elim (validate_of_sfi_eq_none h) (validate_of_chc_eq_none h)

/-- The length check is the last of VALIDATE (R92). -/
theorem validate_of_frame_too_long {s : State} {f : BitVec 4} {c : BitVec 3} (h : s.hvalid = true)
    (hf : sfi s.sRate = some f) (hc : chc s.chCnt = some c) (hlong : 8191 < frameLen s.crcAbs s.pLen) :
    validate s = .error .frameTooLarge := by
  simp [validate, headerValid, frameTooLong, Config.maxFrameLength, h, hf, hc, hlong]

/-- Settles O30: a lookup without an entry fails VALIDATE, and CONSTRUCT does not ask VALIDATE. -/
theorem unsupportedParameterFails : Obligations.UnsupportedParameterFails := by
  refine ⟨fun s hs hnone => ?_, fun a r c l s => ⟨_, exec_construct a r c l s, rfl⟩⟩
  have hv := validate_of_lookup_eq_none hs hnone
  exact ⟨exec_write_of_validate_error hv, exec_toBytes_of_validate_error hv⟩

/-- Settles O31: with both codes looked up, the length alone decides VALIDATE's answer. -/
theorem frameTooLargeFails : Obligations.FrameTooLargeFails := by
  refine fun s f c hs hf hc => ⟨fun hlong => ?_, fun hfits => ?_⟩
  · have hv := validate_of_frame_too_long hs hf hc hlong
    exact ⟨exec_write_of_validate_error hv, exec_toBytes_of_validate_error hv⟩
  · have hcan : CanEncode s ⟨f, c, BitVec.ofNat 13 (frameLen s.crcAbs s.pLen)⟩ := ⟨hs, hf, hc, hfits, rfl⟩
    have hv := canEncode_iff.1 hcan
    exact ⟨⟨_, exec_toBytes_of_validate_ok hv⟩, fun hroom => ⟨_, exec_write_of_room hv hroom, rfl⟩⟩

/-- Settles O33: the checks of VALIDATE one after the other; a state that passes them all can be encoded. -/
theorem failurePriority : Obligations.FailurePriority := by
  intro s i hi
  cases hs : s.hvalid with
  | false => exact .inl ⟨exec_of_validate_error hi (validate_of_not_hvalid hs), rfl⟩
  | true =>
    by_cases hnone : sfi s.sRate = none ∨ chc s.chCnt = none
    · exact .inr (.inl ⟨exec_of_validate_error hi (validate_of_lookup_eq_none hs hnone), rfl, hnone⟩)
    · obtain ⟨hsfi, hchc⟩ := not_or.1 hnone
      obtain ⟨f, hf⟩ := Option.ne_none_iff_exists'.1 hsfi
      obtain ⟨c, hc⟩ := Option.ne_none_iff_exists'.1 hchc
      by_cases hlong : 8191 < frameLen s.crcAbs s.pLen
      · have hfail := exec_of_validate_error hi (validate_of_frame_too_long hs hf hc hlong)
        exact .inr (.inr (.inl ⟨hfail, rfl, hsfi, hchc, hlong⟩))
      · exact .inr (.inr (.inr ⟨⟨f, c, _⟩, hs, hf, hc, Nat.le_of_not_lt hlong, rfl⟩))

/-! ### A failure tells VALIDATE's answer -/

theorem returned_of_exec_of_validate_ok {i : Instr} (hi : i = .write ∨ i = .toBytes) {s t : State} {v : HeaderCodes}
    (hv : validate s = .ok v) (h : exec i s = .next t) :
    ∃ buf, t.returned = .response { status := .ok, buf := buf, rdpos := 0 } :: s.returned := by
  obtain rfl | rfl := hi
  · rw [exec_write_of_validate_ok hv] at h
    split at h
    · cases h
      exact ⟨[], rfl⟩
    · cases h
  · rw [exec_toBytes_of_validate_ok hv] at h
    cases h
    exact ⟨_, rfl⟩

/-- A WRITE or TOBYTES fails with a status only if VALIDATE does (R93, R96). -/
theorem validate_error_of_exec {i : Instr} (hi : i = .write ∨ i = .toBytes) {s : State} {st : Status}
    (h : exec i s = .next (s.respond st [])) (hst : st ≠ .ok) : validate s = .error st := by
  cases hv : validate s with
  | ok v =>
    obtain ⟨buf, hret⟩ := returned_of_exec_of_validate_ok hi hv h
    simp [hst] at hret
  | error st' =>
    have hsame := (exec_of_validate_error hi hv).symm.trans h
    have hret := congrArg State.returned (Host.Outcome.next.inj hsame)
    simpa using hret

/-- Settles O35: the status is VALIDATE's answer, and VALIDATE reads the registers and HVALID alone. -/
theorem failureRepeats : Obligations.FailureRepeats := by
  intro i s u st hi h hst hsame
  have hv := validate_error_of_exec hi h hst
  exact exec_of_validate_error hi ((validate_eq_of_sameRegisters hsame).trans hv)

/-! ### A failure writes nothing -/

/-- If `t` has a failed response more than `s`, it has nothing else: no buffer in the response, no change of state. -/
def FailsByResponding (s t : State) : Prop :=
  ∀ r, t.returned = .response r :: s.returned → r.status ≠ .ok → t = s.respond r.status [] ∧ r.buf = []

theorem failsByResponding_respond (s : State) (st : Status) : FailsByResponding s (s.respond st []) := by
  intro r hr _
  cases hr
  exact ⟨rfl, rfl⟩

theorem failsByResponding_of_ok {s t : State} {buf : List Byte}
    (h : t.returned = .response { status := .ok, buf := buf, rdpos := 0 } :: s.returned) : FailsByResponding s t := by
  intro r hr hne
  cases h.symm.trans hr
  exact absurd rfl hne

theorem failsByResponding_of_returned_eq {s t : State} (h : t.returned = s.returned) : FailsByResponding s t :=
  fun _ hr => absurd (h.symm.trans hr).symm (List.cons_ne_self _ _)

theorem failsByResponding_raise {st : Status} {s t : State} (h : raise st s = .next t) : FailsByResponding s t := by
  rw [raise_next.1 h]
  exact failsByResponding_respond s st

theorem failsByResponding_withRoom {n : Nat} {k : Sink} {s t : State} (h : withRoom n s k = .next t) :
    FailsByResponding s t := by
  obtain ⟨-, rfl⟩ := withRoom_next.1 h
  exact failsByResponding_of_returned_eq rfl

theorem failsByResponding_emitRow {pa : BitVec 1} {f : BitVec 4} {c : BitVec 3} {fl : BitVec 13} {s t : State}
    (h : emitRow pa f c fl s = .next t) : FailsByResponding s t := by
  obtain ⟨-, -, rfl⟩ | ⟨-, rfl⟩ := emitRow_next h
  · exact failsByResponding_of_returned_eq rfl
  · exact failsByResponding_respond s _

theorem failsByResponding_lookupRate (rate : Rate) {s t : State} (h : lookupRate rate s = .next t) :
    FailsByResponding s t := by
  rw [lookupRate_eq] at h
  cases h
  cases sfi rate with
  | some code => exact fun _ hr => nomatch hr
  | none => exact failsByResponding_respond s _

theorem failsByResponding_lookupCount (count : Count) {s t : State} (h : lookupCount count s = .next t) :
    FailsByResponding s t := by
  rw [lookupCount_eq] at h
  cases h
  cases chc count with
  | some code => exact fun _ hr => nomatch hr
  | none => exact failsByResponding_respond s _

theorem failsByResponding_request {i : Instr} (hi : i = .write ∨ i = .toBytes) {s t : State} (h : exec i s = .next t) :
    FailsByResponding s t := by
  cases hv : validate s with
  | ok v =>
    obtain ⟨buf, hret⟩ := returned_of_exec_of_validate_ok hi hv h
    exact failsByResponding_of_ok hret
  | error st =>
    rw [exec_of_validate_error hi hv] at h
    cases h
    exact failsByResponding_respond s st

/-- Whatever the instruction, a failure is a response without a buffer and leaves the state (R154). -/
theorem exec_failsByResponding {i : Instr} {s t : State} (h : exec i s = .next t) : FailsByResponding s t := by
  cases i with
  | construct a r c l =>
    cases h
    exact failsByResponding_of_ok rfl
  | write => exact failsByResponding_request (.inl rfl) h
  | toBytes => exact failsByResponding_request (.inr rfl) h
  | reservedOp => cases h
  | hdr7 f c fl | hdr9 f c fl => exact failsByResponding_emitRow h
  | sfi96000 | sfi88200 | sfi64000 | sfi48000 | sfi44100 | sfi32000 | sfi24000 | sfi22050 | sfi16000 | sfi12000
  | sfi11025 | sfi8000 | sfi7350 | sfiUnsupported =>
    simp only [exec] at h
    exact failsByResponding_lookupRate _ h
  | chc1 | chc2 | chc3 | chc4 | chc5 | chc6 | chc8 | chcCode0 | chcCount7 | chcUnsupported =>
    simp only [exec] at h
    exact failsByResponding_lookupCount _ h
  | putByte | putShort | putInt => exact failsByResponding_withRoom h
  | statusOk =>
    cases h
    exact failsByResponding_of_ok rfl
  | sfiCode13 | sfiCode14 | sfiCode15 | statusUnsupportedParameter | statusFrameTooLarge | statusNoHeader =>
    exact failsByResponding_raise h

/-- Settles O34: each shared operation fails by its response alone, and every instruction is one of them. -/
theorem failureWritesNothing : Obligations.FailureWritesNothing :=
  fun _ _ _ r h => exec_failsByResponding h r

end Sys2Proof.Machine

/-! SUPPORT. Headers bit by bit: the constant bits of PACK (R67), the words that have them (R60), and the bytes of a
header (R62). -/

namespace Sys2Proof

/-! ### The constant bits -/

/-- The mask common to both formats keeps the constant bits, and the CRC flag where the format fixes it (R67). -/
theorem pack_and_mask (pa m : BitVec 1) (f : BitVec 4) (c : BitVec 3) (fl : BitVec 13) :
    pack pa f c fl &&& (0x7FFF#15 ++ m ++ 3#2 ++ 0#4 ++ 1#1 ++ 0#3 ++ 0xF#4 ++ 0#13 ++ 0x1FFF#13) =
      0x7FF8#15 ++ (pa &&& m) ++ 1#2 ++ 0#4 ++ 0#1 ++ 0#3 ++ 0#4 ++ 0#13 ++ 0x1FFC#13 := by
  refine BitVec.eq_of_getLsbD_eq fun i hi => ?_
  simp only [BitVec.getLsbD_and, pack_getLsbD, BitVec.getLsbD_append]
  interval_cases i <;> simp

/-- The constant bits of the 7-byte format, the CRC flag 1 among them (R67). -/
theorem pack_one_and_hdr7Mask (f : BitVec 4) (c : BitVec 3) (fl : BitVec 13) :
    pack 1#1 f c fl &&& hdr7Mask = hdr7Match :=
  pack_and_mask 1#1 1#1 f c fl

/-- The constant bits of the 9-byte format, the CRC flag 0 and the CRC space among them (R64, R67). -/
theorem pack_zero_append_crcFill_and_hdr9Mask (f : BitVec 4) (c : BitVec 3) (fl : BitVec 13) :
    (pack 0#1 f c fl ++ Config.crcFill) &&& hdr9Mask = hdr9Match := by
  have hsplit : hdr9Mask = hdr7Mask ++ 0xFFFF#16 := by decide
  have hpack : pack 0#1 f c fl &&& hdr7Mask = 0xFFF04000001FFC#56 := pack_and_mask 0#1 1#1 f c fl
  rw [hsplit, BitVec.and_append, hpack]
  decide

/-- The constant bits common to both formats (R67). -/
theorem pack_and_commonMask (pa : BitVec 1) (f : BitVec 4) (c : BitVec 3) (fl : BitVec 13) :
    pack pa f c fl &&& 0xFFFEC23C001FFF#56 = 0xFFF04000001FFC#56 := by
  have hflag : pa &&& 0#1 = 0#1 := BitVec.and_zero
  have hpack := pack_and_mask pa 0#1 f c fl
  rw [hflag] at hpack
  exact hpack

/-- Settles O7: the mask leaves the constant fields of PACK and, where the format fixes it, the CRC flag. -/
theorem emittedBitsMatchTheMasks : Obligations.EmittedBitsMatchTheMasks := fun pa f c fl =>
  ⟨pack_and_commonMask pa f c fl, pack_one_and_hdr7Mask f c fl, pack_zero_append_crcFill_and_hdr9Mask f c fl⟩

/-! ### Words that have the constant bits -/

/-- A word is its bits under a mask and those beside it. -/
theorem and_or_and_not {n : Nat} (h m : BitVec n) : h &&& m ||| h &&& ~~~m = h := by
  rw [← BitVec.and_or_distrib_left, BitVec.or_not_self, BitVec.and_allOnes]

/-- PACK of three fields of a word, with the CRC flag 1, is the word with its constant bits put right. -/
theorem pack_one_extractLsb' (h : BitVec 56) :
    pack 1#1 (h.extractLsb' 34 4) (h.extractLsb' 30 3) (h.extractLsb' 13 13) = hdr7Match ||| h &&& ~~~hdr7Mask := by
  refine BitVec.eq_of_getLsbD_eq fun i hi => ?_
  simp only [pack_getLsbD, BitVec.getLsbD_or, BitVec.getLsbD_and, BitVec.getLsbD_extractLsb', hdr7Match, hdr7Mask]
  interval_cases i <;> simp

/-- A word with the constant bits of the 7-byte format is PACK of its three variable fields (R60, R67). -/
theorem pack_one_of_and_hdr7Mask {h : BitVec 56} (hmask : h &&& hdr7Mask = hdr7Match) :
    pack 1#1 (h.extractLsb' 34 4) (h.extractLsb' 30 3) (h.extractLsb' 13 13) = h := by
  rw [pack_one_extractLsb', ← hmask, and_or_and_not]

/-- PACK of three fields of a word, with the CRC flag 0 and CRC_FILL after it, is the word with its constant bits put
right. -/
theorem pack_zero_append_extractLsb' (h : BitVec 72) :
    pack 0#1 (h.extractLsb' 50 4) (h.extractLsb' 46 3) (h.extractLsb' 29 13) ++ Config.crcFill =
      hdr9Match ||| h &&& ~~~hdr9Mask := by
  refine BitVec.eq_of_getLsbD_eq fun i hi => ?_
  simp only [BitVec.getLsbD_append, pack_getLsbD, BitVec.getLsbD_or, BitVec.getLsbD_and, BitVec.getLsbD_extractLsb',
    Config.crcFill, hdr9Match, hdr9Mask]
  interval_cases i <;> simp

/-- A word with the constant bits of the 9-byte format is PACK of its three variable fields and CRC_FILL (R60, R64,
R67). -/
theorem pack_zero_append_of_and_hdr9Mask {h : BitVec 72} (hmask : h &&& hdr9Mask = hdr9Match) :
    pack 0#1 (h.extractLsb' 50 4) (h.extractLsb' 46 3) (h.extractLsb' 29 13) ++ Config.crcFill = h := by
  rw [pack_zero_append_extractLsb', ← hmask, and_or_and_not]

/-! ### The fields of a header -/

theorem pack_extractLsb'_sfi (pa : BitVec 1) (f : BitVec 4) (c : BitVec 3) (fl : BitVec 13) :
    (pack pa f c fl).extractLsb' 34 4 = f :=
  congrArg HeaderFields.sfi (decodeHeader_pack pa f c fl)

theorem pack_extractLsb'_chc (pa : BitVec 1) (f : BitVec 4) (c : BitVec 3) (fl : BitVec 13) :
    (pack pa f c fl).extractLsb' 30 3 = c :=
  congrArg HeaderFields.chc (decodeHeader_pack pa f c fl)

theorem pack_extractLsb'_frameLength (pa : BitVec 1) (f : BitVec 4) (c : BitVec 3) (fl : BitVec 13) :
    (pack pa f c fl).extractLsb' 13 13 = fl :=
  congrArg HeaderFields.frameLength (decodeHeader_pack pa f c fl)

/-- DECODE reads the seven bytes of PACK at the head of a header and gives the fields back (R74). -/
theorem headerOfBytes_headerBytes (pa : BitVec 1) (f : BitVec 4) (c : BitVec 3) (fl : BitVec 13) :
    headerOfBytes (Machine.headerBytes pa f c fl) = pack pa f c fl :=
  Machine.headerOfBytes_bigEndian_append _ _

/-- Settles O8: the first seven bytes of a header are those of PACK, which DECODE inverts. -/
theorem decodeOfHeaderBytesGivesTheFields : Obligations.DecodeOfHeaderBytesGivesTheFields := by
  intro pa f c fl
  rw [headerOfBytes_headerBytes, decodeHeader_pack]

/-- Settles O5: the three words side by side, each of them its fields side by side. -/
theorem packIsTheThreeWords : Obligations.PackIsTheThreeWords := by
  intro pa f c fl
  refine ⟨Machine.pack_eq_words pa f c fl, Machine.w16_eq_fields pa, ?_, by decide⟩
  have hzeros : 0#4 = 0#1 ++ 0#1 ++ 0#1 ++ 0#1 := by decide
  rw [Machine.w32_eq_fields, hzeros]
  simp only [BitVec.append_assoc, BitVec.cast_eq]

/-! ### The bytes of a header -/

/-- Seven bytes side by side are stored in that order (R41). -/
theorem bigEndian_seven (b0 b1 b2 b3 b4 b5 b6 : Byte) :
    Machine.bigEndian 7 (b0 ++ b1 ++ b2 ++ b3 ++ b4 ++ b5 ++ b6) = [b0, b1, b2, b3, b4, b5, b6] := by
  have hbyte (b : Byte) : Machine.bigEndian 1 b = [b] := by simp [Machine.bigEndian]
  have hlast {w : Nat} (n : Nat) (x : BitVec w) (b : Byte) :
      Machine.bigEndian (n + 1) (x ++ b) = Machine.bigEndian n x ++ [b] := by
    rw [Machine.bigEndian_append x b rfl, hbyte]
  simp only [hlast, hbyte, List.cons_append, List.nil_append]

/-- PACK as seven bytes side by side (R62). -/
theorem pack_eq_bytes (pa : BitVec 1) (f : BitVec 4) (c : BitVec 3) (fl : BitVec 13) :
    pack pa f c fl = 0xFF#8 ++ (0xF#4 ++ 0#3 ++ pa) ++ (1#2 ++ f ++ 0#1 ++ c.extractLsb' 2 1)
      ++ (c.extractLsb' 0 2 ++ 0#4 ++ fl.extractLsb' 11 2) ++ fl.extractLsb' 3 8 ++ (fl.extractLsb' 0 3 ++ 0x1F#5)
      ++ 0xFC#8 := by
  refine BitVec.eq_of_getLsbD_eq fun i hi => ?_
  simp only [pack_getLsbD, BitVec.getLsbD_append, BitVec.getLsbD_extractLsb']
  interval_cases i <;> simp

/-- The seven bytes of PACK (R62). -/
theorem bigEndian_seven_pack (pa : BitVec 1) (f : BitVec 4) (c : BitVec 3) (fl : BitVec 13) :
    Machine.bigEndian 7 (pack pa f c fl) =
      [0xFF#8, 0xF#4 ++ 0#3 ++ pa, 1#2 ++ f ++ 0#1 ++ c.extractLsb' 2 1,
        c.extractLsb' 0 2 ++ 0#4 ++ fl.extractLsb' 11 2, fl.extractLsb' 3 8, fl.extractLsb' 0 3 ++ 0x1F#5, 0xFC#8] := by
  rw [pack_eq_bytes]
  exact bigEndian_seven ..

/-! The value column of R62 adds what the concatenations lay side by side. -/

theorem byte_one_eq (pa : BitVec 1) : 0xF#4 ++ 0#3 ++ pa = if pa = 1#1 then 0xF1#8 else 0xF0#8 := by
  revert pa; decide

theorem byte_two_eq (f : BitVec 4) (top : BitVec 1) :
    1#2 ++ f ++ 0#1 ++ top = 0x40#8 + 4#8 * f.setWidth 8 + top.setWidth 8 := by
  revert f top; decide

theorem byte_three_eq (low top : BitVec 2) :
    low ++ 0#4 ++ top = 64#8 * low.setWidth 8 + top.setWidth 8 := by
  revert low top; decide

theorem byte_five_eq (low : BitVec 3) : low ++ 0x1F#5 = 32#8 * low.setWidth 8 + 0x1F#8 := by
  revert low; decide

/-- The CRC space of a header (R64). -/
theorem crcSpace_eq (pa : BitVec 1) :
    (if pa = 0#1 then Machine.bigEndian 2 Config.crcFill else []) = if pa = 1#1 then [] else [0x00#8, 0x00#8] := by
  revert pa; decide

/-- Settles O6: the bytes of PACK, each in the form of the table, and the CRC space. -/
theorem headerBytesFollowTheByteTable : Obligations.HeaderBytesFollowTheByteTable := by
  intro pa f c fl
  rw [Machine.headerBytes, bigEndian_seven_pack, crcSpace_eq, byte_one_eq, byte_two_eq, byte_three_eq, byte_five_eq]

/-! ### The rows of the header formats -/

theorem decodeHdr7_pack (f : BitVec 4) (c : BitVec 3) (fl : BitVec 13) :
    decodeHdr7 (pack 1#1 f c fl) = .ok (.hdr7 f c fl) := by
  rw [decodeHdr7, if_pos (pack_one_and_hdr7Mask f c fl), pack_extractLsb'_sfi, pack_extractLsb'_chc,
    pack_extractLsb'_frameLength]

theorem decodeHdr9_pack (f : BitVec 4) (c : BitVec 3) (fl : BitVec 13) :
    decodeHdr9 (pack 0#1 f c fl ++ Config.crcFill) = .ok (.hdr9 f c fl) := by
  rw [decodeHdr9, if_pos (pack_zero_append_crcFill_and_hdr9Mask f c fl)]
  rw [BitVec.extractLsb'_append_eq_of_le (by decide), BitVec.extractLsb'_append_eq_of_le (by decide),
    BitVec.extractLsb'_append_eq_of_le (by decide), pack_extractLsb'_sfi, pack_extractLsb'_chc,
    pack_extractLsb'_frameLength]

theorem encode_of_decodeHdr7 {h : BitVec 56} {i : Instr} (hd : decodeHdr7 h = .ok i) : encode i = .hdr7 h := by
  unfold decodeHdr7 at hd
  split at hd
  · next hmask =>
    cases hd
    exact congrArg TableWord.hdr7 (pack_one_of_and_hdr7Mask hmask)
  · cases hd

theorem encode_of_decodeHdr9 {h : BitVec 72} {i : Instr} (hd : decodeHdr9 h = .ok i) : encode i = .hdr9 h := by
  unfold decodeHdr9 at hd
  split at hd
  · next hmask =>
    cases hd
    exact congrArg TableWord.hdr9 (pack_zero_append_of_and_hdr9Mask hmask)
  · cases hd

/-! ### The rows of the tables -/

theorem encode_sfiRow (code : BitVec 4) : encode (sfiRow code) = .sfi4 code := by
  revert code; decide

theorem encode_chcRow (code : BitVec 3) : encode (chcRow code) = .chc3 code := by
  revert code; decide

theorem encode_statusRow (code : BitVec 2) : encode (statusRow code) = .status2 code := by
  revert code; decide

/-- Settles O3: a header word is its constant bits and its three fields, the codes are few, and a put is presented by
its value. -/
theorem encodeOfDecodeIsTheWord : Obligations.EncodeOfDecodeIsTheWord := by
  intro w i hd hspace
  cases w with
  | hdr7 h => exact encode_of_decodeHdr7 hd
  | hdr9 h => exact encode_of_decodeHdr9 hd
  | sfi4 code => cases hd; exact encode_sfiRow code
  | chc3 code => cases hd; exact encode_chcRow code
  | status2 code => cases hd; exact encode_statusRow code
  | put8 v | put16 v | put32 v => cases hd; rfl
  | req99 bits | rateArg rate | countArg count => simp [TableWord.format] at hspace

/-- A request word with CONSTRUCT's operands in their places decodes to that CONSTRUCT (R68). -/
theorem decode_requestWord_zero (a : BitVec 1) (r : Rate) (c : Count) (l : Len) :
    decode (requestWord 0#2 (a ++ r ++ c ++ l)) = .ok (.construct a r c l) := by
  have hassoc : 0#2 ++ (a ++ r ++ c ++ l) = 0#2 ++ a ++ r ++ c ++ l := by
    simp only [BitVec.append_assoc, BitVec.cast_eq]
  rw [requestWord, hassoc]
  exact congrArg Except.ok (decodeRequest_construct a r c l)

theorem rateRow_of_sfi_eq_none {rate : Rate} (h : Machine.sfi rate = none) : rateRow rate = .sfiUnsupported rate := by
  simp only [rateRow, h]

theorem chc_eq_none_of_nine_le {count : Count} (h : 9 ≤ count.toNat) : Machine.chc count = none := by
  refine Machine.chc_eq_none_of_not_mem ?_
  simp only [Machine.chcPairs, List.map_cons, List.map_nil, List.mem_cons, List.not_mem_nil, or_false]
  omega

/-- From nine channels on, a count is none that has a row of its own (R140). -/
theorem countRow_of_nine_le {count : Count} (h : 9 ≤ count.toNat) : countRow count = .chcUnsupported count := by
  have hzero : count ≠ 0#32 := by rintro rfl; exact absurd h (by decide)
  have hseven : count ≠ 7#32 := by rintro rfl; exact absurd h (by decide)
  simp only [countRow, chc_eq_none_of_nine_le h, if_neg hzero, if_neg hseven]

/-- Settles O2: PACK's fields and CONSTRUCT's operands are read from where they were laid down, the not-found rows carry
operands without an entry, and every other word is constant or is its operand. -/
theorem decodeOfEncodeIsTheInstruction : Obligations.DecodeOfEncodeIsTheInstruction := by
  intro i hwf
  cases i with
  | construct a r c l => exact decode_requestWord_zero a r c l
  | write => exact decode_requestWord_one _
  | toBytes => exact decode_requestWord_two _
  | reservedOp => exact decode_requestWord_three _
  | hdr7 f c fl => exact decodeHdr7_pack f c fl
  | hdr9 f c fl => exact decodeHdr9_pack f c fl
  | sfiUnsupported rate => exact congrArg Except.ok (rateRow_of_sfi_eq_none (Option.isNone_iff_eq_none.1 hwf))
  | chcUnsupported count => exact congrArg Except.ok (countRow_of_nine_le (of_decide_eq_true hwf))
  | _ => rfl

/-- Settles O4: the words are decoded. -/
theorem writtenOutWordsDecode : Obligations.WrittenOutWordsDecode :=
  ⟨rfl, rfl, rfl, rfl, rfl, rfl, rfl, rfl, rfl⟩

end Sys2Proof

/-! SUPPORT. What the block can return (R67, R69, R71), what an instruction other than CONSTRUCT depends on, and the
invariant of the machine. -/

namespace Sys2Proof.Machine

/-! ### Returnable values -/

theorem emittable_iff {n : Nat} {f : BitVec 4} {c : BitVec 3} {fl : BitVec 13} :
    emittable n f c fl = true ↔ f.toNat ≤ 12 ∧ c ≠ 0#3 ∧ n ≤ fl.toNat := by
  have hpos : 1 ≤ c.toNat ↔ c ≠ 0#3 := by revert c; decide
  simp only [emittable, Bool.and_eq_true, decide_eq_true_eq, hpos, and_assoc]

/-- The bytes of a header with codes the block emits are one header (R60, R64, R67, R71). -/
theorem isHeader_headerBytes {pa : BitVec 1} {f : BitVec 4} {c : BitVec 3} {fl : BitVec 13}
    (h : emittable (hdrSize pa) f c fl = true) : isHeader (headerBytes pa f c fl) = true := by
  have hcrc : (headerBytes pa f c fl).drop 7 = if pa = 0#1 then bigEndian 2 Config.crcFill else [] :=
    List.drop_left' (bigEndian_length 7 _)
  simp only [isHeader, headerOfBytes_headerBytes, decodeHeader_pack, pack_and_commonMask, headerBytes_length, hcrc, h,
    decide_true, Bool.and_self]

/-- The codes and the length VALIDATE hands on are some the block emits (R92, R71). -/
theorem emittable_of_validate {s : State} {v : HeaderCodes} (h : validate s = .ok v) :
    emittable (hdrSize s.crcAbs) v.sfi v.chc v.fl = true := by
  obtain ⟨-, hsfi, hchc, -, -⟩ := validate_ok.1 h
  refine emittable_iff.2 ⟨?_, ?_, ?_⟩
  · exact Nat.le_of_not_lt fun hlt => sfi_ne_some_of_twelve_lt _ hlt hsfi
  · exact fun hzero => chc_ne_some_zero _ (hzero ▸ hchc)
  · rw [validate_fl_toNat h]
    exact Nat.le_add_left _ _

theorem returnable_of_no_buffer (st : Status) : returnable (.response { status := st, buf := [], rdpos := 0 }) = true :=
  rfl

theorem returnable_of_headerBytes {s : State} {v : HeaderCodes} (h : validate s = .ok v) :
    returnable (.response { status := .ok, buf := headerBytes s.crcAbs v.sfi v.chc v.fl, rdpos := 0 }) = true := by
  simp [returnable, isHeader_headerBytes (emittable_of_validate h)]

/-- What the lookup SFI answers can be returned (R110, R125). -/
theorem exists_lookupRate_eq (rate : Rate) :
    ∃ r, returnable r = true ∧ ∀ s, lookupRate rate s = .next (s.give r) := by
  refine ⟨_, ?_, lookupRate_eq rate⟩
  cases h : sfi rate with
  | none => rfl
  | some code => exact decide_eq_true (Nat.le_of_not_lt fun hlt => sfi_ne_some_of_twelve_lt _ hlt h)

/-- What the lookup CHC answers can be returned (R130, R138). -/
theorem exists_lookupCount_eq (count : Count) :
    ∃ r, returnable r = true ∧ ∀ s, lookupCount count s = .next (s.give r) := by
  refine ⟨_, ?_, lookupCount_eq count⟩
  cases h : chc count with
  | none => rfl
  | some code => exact decide_eq_true fun hzero => chc_ne_some_zero _ (hzero ▸ h)

/-- A row of the two tables or of the status codes hands back one value, the same from every state, and does nothing
else (R110, R130, R153). -/
theorem exec_gives_of_format {i : Instr} (h : i.format = .sfi4 ∨ i.format = .chc3 ∨ i.format = .status2) :
    ∃ r, returnable r = true ∧ ∀ s, exec i s = .next (s.give r) := by
  cases i with
  | sfi96000 | sfi88200 | sfi64000 | sfi48000 | sfi44100 | sfi32000 | sfi24000 | sfi22050 | sfi16000 | sfi12000
  | sfi11025 | sfi8000 | sfi7350 | sfiUnsupported =>
    simp only [exec]
    exact exists_lookupRate_eq _
  | chc1 | chc2 | chc3 | chc4 | chc5 | chc6 | chc8 | chcCode0 | chcCount7 | chcUnsupported =>
    simp only [exec]
    exact exists_lookupCount_eq _
  | sfiCode13 | sfiCode14 | sfiCode15 | statusUnsupportedParameter =>
    exact ⟨_, returnable_of_no_buffer .unsupportedParameter, fun _ => rfl⟩
  | statusOk => exact ⟨_, returnable_of_no_buffer .ok, fun _ => rfl⟩
  | statusFrameTooLarge => exact ⟨_, returnable_of_no_buffer .frameTooLarge, fun _ => rfl⟩
  | statusNoHeader => exact ⟨_, returnable_of_no_buffer .noHeader, fun _ => rfl⟩
  | _ => simp [Instr.format] at h

/-! ### What an instruction other than CONSTRUCT depends on -/

/-- `s` with bytes appended to its sink and values handed back. -/
def State.extend (s : State) (bs : List Byte) (rs : List Returned) : State :=
  { s with sink := s.sink.append bs, returned := rs ++ s.returned }

/-- The two sinks have room for the same numbers of bytes. -/
def SameRoom (k j : Sink) : Prop := ∀ n, j.hasRoom n = k.hasRoom n

/-- The operation appends the same bytes and hands back the same values, some that the block can return, from every
state with the registers and the room of `s`. -/
def ExtendsAlike (op : State → Host.Outcome State Fault Refusal) (s : State) : Prop :=
  ∃ bs rs, (∀ r ∈ rs, returnable r = true)
    ∧ ∀ u, SameRegisters s u → SameRoom s.sink u.sink → op u = .next (u.extend bs rs)

theorem ExtendsAlike.of_give {op : State → Host.Outcome State Fault Refusal} {r : Returned} (hr : returnable r = true)
    (h : ∀ u, op u = .next (u.give r)) (s : State) : ExtendsAlike op s :=
  ⟨[], [r], by simpa using hr, fun u _ _ => h u⟩

theorem ExtendsAlike.of_withRoom {n : Nat} {bs : List Byte} {s t : State}
    (h : withRoom n s (s.sink.append bs) = .next t) : ExtendsAlike (fun u => withRoom n u (u.sink.append bs)) s := by
  obtain ⟨hroom, -⟩ := withRoom_next.1 h
  exact ⟨bs, [], nofun, fun u _ hsame => withRoom_next.2 ⟨(hsame n).trans hroom, rfl⟩⟩

theorem emitRow_of_emittable {pa : BitVec 1} {f : BitVec 4} {c : BitVec 3} {fl : BitVec 13}
    (h : emittable (hdrSize pa) f c fl = true) (s : State) :
    emitRow pa f c fl s = withRoom (hdrSize pa) s (s.sink.append (headerBytes pa f c fl)) := by
  rw [emitRow, if_pos h, emitHeader_eq_append, wordBytes_eq_headerBytes]

theorem emitRow_of_not_emittable {pa : BitVec 1} {f : BitVec 4} {c : BitVec 3} {fl : BitVec 13}
    (h : ¬ emittable (hdrSize pa) f c fl = true) (s : State) :
    emitRow pa f c fl s = .next (s.respond .unsupportedParameter []) := by
  rw [emitRow, if_neg h, raise]

theorem ExtendsAlike.of_emitRow {pa : BitVec 1} {f : BitVec 4} {c : BitVec 3} {fl : BitVec 13} {s t : State}
    (h : emitRow pa f c fl s = .next t) : ExtendsAlike (emitRow pa f c fl) s := by
  by_cases he : emittable (hdrSize pa) f c fl = true
  · rw [funext (emitRow_of_emittable he)] at h ⊢
    exact .of_withRoom h
  · exact .of_give (returnable_of_no_buffer _) (emitRow_of_not_emittable he) s

theorem ExtendsAlike.of_validate_error {i : Instr} (hi : i = .write ∨ i = .toBytes) {s : State} {st : Status}
    (h : validate s = .error st) : ExtendsAlike (exec i) s :=
  ⟨[], [_], by simpa using returnable_of_no_buffer st, fun _ hregs _ =>
    exec_of_validate_error hi ((validate_eq_of_sameRegisters hregs).trans h)⟩

theorem ExtendsAlike.of_write {s t : State} (h : exec .write s = .next t) : ExtendsAlike (exec .write) s := by
  cases hv : validate s with
  | error st => exact .of_validate_error (.inl rfl) hv
  | ok v =>
    have hroom : s.sink.hasRoom (hdrSize s.crcAbs) = true := by
      by_contra hno
      rw [exec_write_of_validate_ok hv, if_neg hno] at h
      cases h
    refine ⟨headerBytes s.crcAbs v.sfi v.chc v.fl, [_], by simpa using returnable_of_no_buffer .ok,
      fun u hregs hsame => ?_⟩
    have hvu := (validate_eq_of_sameRegisters hregs).trans hv
    obtain ⟨hcrc, -⟩ := hregs
    rw [exec_write_of_room hvu (roomFor_iff.2 (by rw [hcrc, hsame, hroom])), hcrc]
    rfl

theorem ExtendsAlike.of_toBytes (s : State) : ExtendsAlike (exec .toBytes) s := by
  cases hv : validate s with
  | error st => exact .of_validate_error (.inr rfl) hv
  | ok v =>
    refine ⟨[], [_], by simpa using returnable_of_headerBytes hv, fun u hregs _ => ?_⟩
    have hvu := (validate_eq_of_sameRegisters hregs).trans hv
    obtain ⟨hcrc, -⟩ := hregs
    rw [exec_toBytes_of_validate_ok hvu, hcrc]
    rfl

/-- Every instruction but CONSTRUCT appends and hands back what the registers and the room alone decide. -/
theorem exec_extendsAlike {i : Instr} {s t : State} (h : exec i s = .next t) :
    (∃ a r c l, i = .construct a r c l) ∨ ExtendsAlike (exec i) s := by
  have htable (hf : i.format = .sfi4 ∨ i.format = .chc3 ∨ i.format = .status2) : ExtendsAlike (exec i) s := by
    obtain ⟨r, hr, hgive⟩ := exec_gives_of_format hf
    exact .of_give hr hgive s
  cases i with
  | construct a r c l => exact .inl ⟨a, r, c, l, rfl⟩
  | write => exact .inr (.of_write h)
  | toBytes => exact .inr (.of_toBytes s)
  | reservedOp => cases h
  | hdr7 f c fl | hdr9 f c fl => exact .inr (.of_emitRow h)
  | putByte v =>
    rw [funext (exec_putByte v)] at h ⊢
    exact .inr (.of_withRoom h)
  | putShort v =>
    rw [funext (exec_putShort v)] at h ⊢
    exact .inr (.of_withRoom h)
  | putInt v =>
    rw [funext (exec_putInt v)] at h ⊢
    exact .inr (.of_withRoom h)
  | _ => exact .inr (htable (by simp [Instr.format]))

/-- The next state of such an instruction, as one of the many it behaves alike in. -/
theorem ExtendsAlike.next_eq {op : State → Host.Outcome State Fault Refusal} {s t : State} (h : ExtendsAlike op s)
    (ht : op s = .next t) : ∃ bs rs, t = s.extend bs rs ∧ (∀ r ∈ rs, returnable r = true)
      ∧ ∀ u, SameRegisters s u → SameRoom s.sink u.sink → op u = .next (u.extend bs rs) := by
  obtain ⟨bs, rs, hrs, hop⟩ := h
  have hs := hop s ⟨rfl, rfl, rfl, rfl, rfl⟩ fun _ => rfl
  exact ⟨bs, rs, Host.Outcome.next.inj (ht.symm.trans hs), hrs, hop⟩

/-! ### The invariant -/

theorem machineInv_extend {s : State} (h : MachineInv s) (bs : List Byte) {rs : List Returned}
    (hrs : ∀ r ∈ rs, returnable r = true) : MachineInv (s.extend bs rs) := by
  obtain ⟨hmem, hret⟩ := h
  exact ⟨Mem.wf_writeBytes hmem _ _, fun r hr => (List.mem_append.1 hr).elim (hrs r) (hret r)⟩

theorem exec_keeps_inv {i : Instr} {s t : State} (hinv : MachineInv s) (h : exec i s = .next t) : MachineInv t := by
  obtain ⟨a, r, c, l, rfl⟩ | halike := exec_extendsAlike h
  · obtain ⟨hmem, hret⟩ := hinv
    cases h
    exact ⟨hmem, List.forall_mem_cons.2 ⟨returnable_of_no_buffer .ok, hret⟩⟩
  · obtain ⟨bs, rs, rfl, hrs, -⟩ := halike.next_eq h
    exact machineInv_extend hinv bs hrs

theorem hostAct_keeps_inv {a : HostAct} {s t : State} (hinv : MachineInv s) (h : hostAct a s = .next t) :
    MachineInv t := by
  obtain ⟨hmem, hret⟩ := hinv
  obtain ⟨bs, -, -, rfl⟩ | ⟨x, b, -, -, rfl⟩ | ⟨p, -, rfl⟩ | ⟨l, -, rfl⟩ | ⟨-, rfl⟩ := hostAct_next h
  · exact ⟨Mem.wf_writeBytes hmem _ bs, hret⟩
  · exact ⟨Mem.wf_write hmem x b, hret⟩
  · exact ⟨hmem, hret⟩
  · exact ⟨rfl, hret⟩
  · exact ⟨hmem, hret⟩

/-- Settles O58: taking a move off the list changes nothing the invariant reads, and every act and every instruction
keeps it. -/
theorem stepKeepsTheInvariant : Obligations.StepKeepsTheInvariant := by
  intro s t hinv h
  obtain ⟨-, rfl⟩ | ⟨a, rest, -, ha⟩ | ⟨w, i, rest, -, -, hi⟩ := step_next h
  · exact hinv
  · exact hostAct_keeps_inv (s := { s with pending := rest }) hinv ha
  · exact exec_keeps_inv (s := { s with pending := rest }) hinv hi

/-- Settles O57: the empty memory is in canonical form, and nothing was returned. -/
theorem invariantHoldsAtReset : Obligations.InvariantHoldsAtReset := ⟨Mem.wf_reset, nofun⟩

/-! ### What is returned and what stands in the sink is not read -/

/-- Settles O52: the registers and the room are the same whatever was returned before. -/
theorem returnedIsNeverRead : Obligations.ReturnedIsNeverRead := by
  intro i s t h
  obtain ⟨a, r, c, l, rfl⟩ | halike := exec_extendsAlike h
  · cases h
    exact ⟨[_], rfl, fun _ => rfl⟩
  · obtain ⟨bs, rs, rfl, -, hop⟩ := halike.next_eq h
    exact ⟨rs, rfl, fun old => hop { s with returned := old } ⟨rfl, rfl, rfl, rfl, rfl⟩ fun _ => rfl⟩

/-- Between the old and the new cursor stand the bytes appended, whatever the sink held before. -/
theorem Sink.read_append_of_sameCursor {k j : Sink} (hpos : j.pos = k.pos) {bs : List Byte} {x : Nat} (hle : k.pos ≤ x)
    (hlt : x < (k.append bs).pos) : (j.append bs).mem.read x = (k.append bs).mem.read x := by
  obtain ⟨n, rfl⟩ := Nat.exists_eq_add_of_le hle
  have hn : n < bs.length := by rw [Sink.append_pos] at hlt; omega
  rw [k.read_append hn, ← hpos, j.read_append hn]

/-- Settles O53: the registers and the room are the same whatever bytes are in the sink. -/
theorem sinkBytesAreNeverRead : Obligations.SinkBytesAreNeverRead := by
  intro i s t m h
  obtain ⟨a, r, c, l, rfl⟩ | halike := exec_extendsAlike h
  · cases h
    exact ⟨_, rfl, rfl, rfl, ⟨rfl, rfl, rfl, rfl, rfl⟩, fun x hle hlt => absurd hlt (Nat.not_lt_of_le hle)⟩
  · obtain ⟨bs, rs, rfl, -, hop⟩ := halike.next_eq h
    exact ⟨_, hop { s with sink := _ } ⟨rfl, rfl, rfl, rfl, rfl⟩ fun _ => rfl, rfl, rfl, ⟨rfl, rfl, rfl, rfl, rfl⟩,
      fun _ hle hlt => Sink.read_append_of_sameCursor (k := s.sink) (j := { s.sink with mem := m }) rfl hle hlt⟩

end Sys2Proof.Machine

/-! SUPPORT. The rows of the two tables and of the status codes (R110 to R141, R153): what each answers, and which
operands and codes the tables pair. -/

namespace Sys2Proof.Machine

/-! ### What the rows answer -/

/-- Settles O11: each row is the lookup at its key. -/
theorem sfiRowsHandBackTheirCodes : Obligations.SfiRowsHandBackTheirCodes := fun _ =>
  ⟨rfl, rfl, rfl, rfl, rfl, rfl, rfl, rfl, rfl, rfl, rfl, rfl, rfl⟩

/-- Settles O17: each row is the lookup at its key. -/
theorem chcRowsHandBackTheirCodes : Obligations.ChcRowsHandBackTheirCodes := fun _ =>
  ⟨rfl, rfl, rfl, rfl, rfl, rfl, rfl⟩

/-- Settles O46: the codes are laid out, and each row is the response with its status. -/
theorem statusRowsRespond : Obligations.StatusRowsRespond :=
  ⟨⟨rfl, rfl, rfl, rfl⟩, fun _ => ⟨rfl, rfl, rfl, rfl⟩⟩

theorem lookupRate_of_eq_none {rate : Rate} (h : sfi rate = none) (s : State) :
    lookupRate rate s = .next (s.respond .unsupportedParameter []) := by
  simp only [lookupRate, h, raise]

theorem lookupCount_of_eq_none {count : Count} (h : chc count = none) (s : State) :
    lookupCount count s = .next (s.respond .unsupportedParameter []) := by
  simp only [lookupCount, h, raise]

/-- Settles O14: the unused codes and the counts 0 and 7 raise as they stand, and the not-found rows are lookups that
find nothing. -/
theorem rowsWithoutAnEntryRaise : Obligations.RowsWithoutAnEntryRaise := fun s =>
  ⟨⟨rfl, rfl, rfl, rfl, rfl⟩, fun _ hkey => lookupRate_of_eq_none (sfi_eq_none_of_not_mem hkey) s,
    fun _ hnine => lookupCount_of_eq_none (chc_eq_none_of_nine_le hnine) s⟩

/-! ### The rows that answer for an operand -/

/-- The row that answers for a rate, run alone, is the lookup at that rate (R110, log entry 6). -/
theorem exec_rateRow (rate : Rate) (s : State) : exec (rateRow rate) s = lookupRate rate s := by
  cases h : sfi rate with
  | none => rw [rateRow_of_sfi_eq_none h]; rfl
  | some code =>
    have hrow : rateRow rate = sfiRow code := by simp only [rateRow, h]
    rw [hrow]
    unfold sfi at h
    iterate 13 (obtain ⟨rfl, rfl⟩ | h := ite_some_cases h; · rfl)
    cases h

/-- The row that answers for a count, run alone, is the lookup at that count (R130, log entry 6). -/
theorem exec_countRow (count : Count) (s : State) : exec (countRow count) s = lookupCount count s := by
  cases h : chc count with
  | none =>
    simp only [countRow, h]
    split
    · next hzero => rw [hzero]; rfl
    · split
      · next hseven => rw [hseven]; rfl
      · rfl
  | some code =>
    have hrow : countRow count = chcRow code := by simp only [countRow, h]
    rw [hrow]
    unfold chc at h
    iterate 7 (obtain ⟨rfl, rfl⟩ | h := ite_some_cases h; · rfl)
    cases h

/-! ### The tables as pairings -/

theorem sfi_of_mem_sfiPairs : ∀ p ∈ sfiPairs, sfi (BitVec.ofNat 32 p.1) = some (BitVec.ofNat 4 p.2) := by decide

theorem chc_of_mem_chcPairs : ∀ p ∈ chcPairs, chc (BitVec.ofNat 32 p.1) = some (BitVec.ofNat 3 p.2) := by decide

/-- In the table of R110, equal codes stand beside equal rates, and a higher rate beside a smaller code. -/
theorem sfiPairs_antitone : ∀ p ∈ sfiPairs, ∀ q ∈ sfiPairs,
    (p.2 = q.2 → p.1 = q.1) ∧ (p.1 < q.1 → q.2 < p.2) := by decide

/-- In the table of R130, equal codes stand beside equal counts. -/
theorem chcPairs_injective : ∀ p ∈ chcPairs, ∀ q ∈ chcPairs, p.2 = q.2 → p.1 = q.1 := by decide

theorem exists_sfi_eq_some_of_le {c : BitVec 4} (h : c.toNat ≤ 12) : ∃ r, sfi r = some c := by
  have hcodes : ∀ n ≤ 12, ∃ p ∈ sfiPairs, p.2 = n := by decide
  obtain ⟨p, hp, hcode⟩ := hcodes _ h
  exact ⟨_, (sfi_of_mem_sfiPairs p hp).trans (by rw [hcode, BitVec.ofNat_toNat, BitVec.setWidth_eq])⟩

theorem exists_chc_eq_some_of_pos {c : BitVec 3} (h : 1 ≤ c.toNat) : ∃ n, chc n = some c := by
  have hcodes : ∀ n < 8, 1 ≤ n → ∃ p ∈ chcPairs, p.2 = n := by decide
  obtain ⟨p, hp, hcode⟩ := hcodes _ c.isLt h
  exact ⟨_, (chc_of_mem_chcPairs p hp).trans (by rw [hcode, BitVec.ofNat_toNat, BitVec.setWidth_eq])⟩

/-- Settles O15: rate and code are one of the table's 13 pairs, whose rates fall as the codes rise. -/
theorem sfiIsInjectiveOntoAndDecreasing : Obligations.SfiIsInjectiveOntoAndDecreasing := by
  refine ⟨fun r q c hr hq => ?_, fun c => ⟨?_, exists_sfi_eq_some_of_le⟩, fun r q c d hr hq hlt => ?_⟩
  · obtain ⟨hinj, -⟩ := sfiPairs_antitone _ (sfi_some_mem hr) _ (sfi_some_mem hq)
    exact BitVec.eq_of_toNat_eq (hinj rfl)
  · rintro ⟨r, hr⟩
    exact Nat.le_of_not_lt fun hlt => sfi_ne_some_of_twelve_lt r hlt hr
  · obtain ⟨-, hdec⟩ := sfiPairs_antitone _ (sfi_some_mem hr) _ (sfi_some_mem hq)
    exact hdec hlt

/-- Settles O19: count and code are one of the table's 7 pairs, the first six of which are equal numbers. -/
theorem chcIsInjectiveAndOnto : Obligations.ChcIsInjectiveAndOnto := by
  refine ⟨fun n m c hn hm => ?_, fun c => ⟨?_, exists_chc_eq_some_of_pos⟩, fun n hone hsix => ?_, rfl⟩
  · exact BitVec.eq_of_toNat_eq (chcPairs_injective _ (chc_some_mem hn) _ (chc_some_mem hm) rfl)
  · rintro ⟨n, hn⟩
    refine Nat.pos_of_ne_zero fun hzero => chc_ne_some_zero n ?_
    rw [hn, BitVec.eq_of_toNat_eq (y := 0#3) hzero]
  · have hdiag : ∀ k ≤ 6, 1 ≤ k → (k, k) ∈ chcPairs := by decide
    simpa using chc_of_mem_chcPairs _ (hdiag _ hsix hone)

end Sys2Proof.Machine

/-! SUPPORT. What is stored in the sink (R41 to R45): the puts and header rows, with room and without, WRITE as its
rows, and two WRITEs in a row (R31, R93, R97); the checks of R100 and R183. -/

namespace Sys2Proof.Machine

/-! ### Storing -/

/-- Settles O41: MemWrite stores the big-endian bytes at rising addresses, for every number of bytes. -/
theorem memWriteIsBigEndian : Obligations.MemWriteIsBigEndian := by
  intro m addr n v _
  have hlen := bigEndian_length n v
  refine ⟨fun k hk => ?_, fun x hx => Mem.read_writeBytes_outside m (by rwa [hlen])⟩
  have hbyte : n - k - 1 = n - 1 - k := by omega
  rw [memWrite, Mem.read_writeBytes, if_pos (by omega), Nat.add_sub_cancel_left, bigEndian_getElem? v hk, hbyte]

/-- What appending `n` bytes does to the sink: the bytes from the old cursor on, and the frame of R48. -/
theorem append_frame {s t : State} {bs : List Byte} {n : Nat} (h : t.sink = s.sink.append bs) (hlen : bs.length = n) :
    (∀ k, k < n → t.sink.mem.read (s.sink.pos + k) = bs[k]?) ∧ SameMemOutside s.sink.pos n s t
      ∧ t.sink.pos = s.sink.pos + n ∧ t.sink.limit = s.sink.limit := by
  refine ⟨fun k hk => ?_, sameMemOutside_of_append h hlen, ?_, ?_⟩
  · rw [h, Sink.read_append s.sink (hlen.symm ▸ hk)]
  · rw [h, Sink.append_pos, hlen]
  · rw [h, Sink.append_limit]

theorem withRoom_of_not_room {n : Nat} {s : State} (k : Sink) (h : ¬ RoomFor n s.sink) :
    withRoom n s k = .refused .sinkNoRoom := by
  rw [withRoom, if_neg (mt roomFor_iff.2 h)]

/-- Settles O43: each put asks for room of its width first. -/
theorem putsWithoutRoomAreRefused : Obligations.PutsWithoutRoomAreRefused := fun _ =>
  ⟨fun _ => withRoom_of_not_room _, fun _ => withRoom_of_not_room _, fun _ => withRoom_of_not_room _⟩

/-! ### The header rows -/

/-- A header row with codes the block emits and with room appends ENCODE's bytes, and nothing else changes. -/
theorem emitRow_appends {pa : BitVec 1} {f : BitVec 4} {c : BitVec 3} {fl : BitVec 13} {s : State}
    (he : emittable (hdrSize pa) f c fl = true) (hroom : RoomFor (hdrSize pa) s.sink) :
    ∃ t, emitRow pa f c fl s = .next t
      ∧ (∀ k, k < hdrSize pa → t.sink.mem.read (s.sink.pos + k) = (headerBytes pa f c fl)[k]?)
      ∧ SameMemOutside s.sink.pos (hdrSize pa) s t ∧ t.sink.pos = s.sink.pos + hdrSize pa
      ∧ t.sink.limit = s.sink.limit ∧ SameRegisters s t ∧ t.returned = s.returned ∧ t.pending = s.pending := by
  obtain ⟨hbytes, hout, hpos, hlimit⟩ :=
    append_frame (t := s.setSink (s.sink.append (headerBytes pa f c fl))) rfl (headerBytes_length pa f c fl)
  exact ⟨_, (emitRow_of_emittable he s).trans (withRoom_next.2 ⟨roomFor_iff.1 hroom, rfl⟩), hbytes, hout, hpos, hlimit,
    sameRegisters_of_advances (advances_append _ _), rfl, rfl⟩

/-- Settles O44: each row emits the header of its CRC flag. -/
theorem headerRowsAppendTheHeader : Obligations.HeaderRowsAppendTheHeader := fun _ _ _ _ hf hc =>
  ⟨fun hfl => emitRow_appends (pa := 1#1) (emittable_iff.2 ⟨hf, hc, hfl⟩),
    fun hfl => emitRow_appends (pa := 0#1) (emittable_iff.2 ⟨hf, hc, hfl⟩)⟩

theorem not_emittable_iff {n : Nat} {f : BitVec 4} {c : BitVec 3} {fl : BitVec 13} :
    (¬ emittable n f c fl = true) ↔ 12 < f.toNat ∨ c = 0#3 ∨ fl.toNat < n := by
  rw [emittable_iff, not_and_or, not_and_or, not_not, Nat.not_le, Nat.not_le]

theorem emitRow_of_not_room {pa : BitVec 1} {f : BitVec 4} {c : BitVec 3} {fl : BitVec 13} {s : State}
    (he : emittable (hdrSize pa) f c fl = true) (hroom : ¬ RoomFor (hdrSize pa) s.sink) :
    emitRow pa f c fl s = .refused .sinkNoRoom := by
  rw [emitRow_of_emittable he, withRoom_of_not_room _ hroom]

/-- Settles O45: the codes are tested first, then the room. -/
theorem headerRowsStopOrFail : Obligations.HeaderRowsStopOrFail := fun _ _ _ s =>
  ⟨fun hbad => emitRow_of_not_emittable (pa := 1#1) (not_emittable_iff.2 hbad) s,
    fun hbad => emitRow_of_not_emittable (pa := 0#1) (not_emittable_iff.2 hbad) s,
    fun hf hc hfl => emitRow_of_not_room (pa := 1#1) (emittable_iff.2 ⟨hf, hc, hfl⟩),
    fun hf hc hfl => emitRow_of_not_room (pa := 0#1) (emittable_iff.2 ⟨hf, hc, hfl⟩)⟩

/-! ### WRITE -/

/-- WRITE of an encodable header with room appends ENCODE's bytes, leaves the registers and hands back OK (R93). -/
theorem exec_write_appends {s : State} {v : HeaderCodes} (henc : CanEncode s v)
    (hroom : RoomFor (hdrSize s.crcAbs) s.sink) :
    ∃ t, exec .write s = .next t ∧ t.sink = s.sink.append (headerBytes s.crcAbs v.sfi v.chc v.fl) ∧ SameRegisters s t
      ∧ t.returned = .response { status := .ok, buf := [], rdpos := 0 } :: s.returned ∧ t.pending = s.pending := by
  have hwrite := exec_write_of_room (canEncode_iff.1 henc) hroom
  exact ⟨_, hwrite, rfl, sameRegisters_of_advances (advances_write hwrite), rfl, rfl⟩

/-- Settles O22: the bytes are HDRSIZE many, and appending them has the frame asked for. -/
theorem writeAppendsTheHeader : Obligations.WriteAppendsTheHeader := by
  intro s v henc hroom
  obtain ⟨t, hwrite, hsink, hregs, hret, hpend⟩ := exec_write_appends henc hroom
  obtain ⟨hbytes, hout, hpos, hlimit⟩ := append_frame hsink (headerBytes_length s.crcAbs v.sfi v.chc v.fl)
  exact ⟨t, hwrite, hbytes, hout, hpos, hlimit, hregs, hret, hpend⟩

/-- Settles O24: both requests pass VALIDATE's failure on, and otherwise both emit ENCODE's bytes. -/
theorem writeAndToBytesAgree : Obligations.WriteAndToBytesAgree := by
  intro s hroom
  cases hv : validate s with
  | error st =>
    exact ⟨_, _, st, [], exec_write_of_validate_error hv, exec_toBytes_of_validate_error hv, rfl, rfl,
      fun hok => absurd hok (validate_error_ne_ok hv)⟩
  | ok v =>
    exact ⟨_, _, .ok, _, exec_write_of_room hv hroom, exec_toBytes_of_validate_ok hv, rfl, rfl,
      fun _ => ⟨rfl, fun _ hk => Sink.read_append s.sink hk⟩⟩

theorem canEncode_of_sameRegisters {s t : State} {v : HeaderCodes} (h : SameRegisters s t) (henc : CanEncode s v) :
    CanEncode t v :=
  canEncode_iff.2 ((validate_eq_of_sameRegisters h).trans (canEncode_iff.1 henc))

/-- Settles O27: after the first WRITE the registers are the same, so the second appends the same bytes, past the first
copy. -/
theorem secondWriteAppendsTheSameBytes : Obligations.SecondWriteAppendsTheSameBytes := by
  intro s v henc hroom
  have hlen := headerBytes_length s.crcAbs v.sfi v.chc v.fl
  have hroomS : RoomFor (hdrSize s.crcAbs) s.sink := fun l hl => by have := hroom l hl; omega
  obtain ⟨t, hfirst, hsinkT, hregs, hretT, -⟩ := exec_write_appends henc hroomS
  obtain ⟨hbytesT, -, hposT, hlimitT⟩ := append_frame hsinkT hlen
  have hcrc : t.crcAbs = s.crcAbs := hregs.1
  have hroomT : RoomFor (hdrSize t.crcAbs) t.sink := fun l hl => by
    have := hroom l (hlimitT ▸ hl)
    rw [hcrc]
    omega
  obtain ⟨u, hsecond, hsinkU, -, hretU, -⟩ := exec_write_appends (canEncode_of_sameRegisters hregs henc) hroomT
  rw [hcrc] at hsinkU
  obtain ⟨hbytesU, houtU, hposU, -⟩ := append_frame hsinkU hlen
  refine ⟨t, u, hfirst, hsecond, hretT, hretU, by omega, fun k hk => ⟨houtU _ (.inl (by omega)), ?_⟩⟩
  rw [← hposT, hbytesU k hk, hbytesT k hk]

/-! ### WRITE as its rows -/

/-- The header row of a CRC flag is the emission with that flag (R63, R64). -/
theorem exec_headerRow (pa : BitVec 1) (f : BitVec 4) (c : BitVec 3) (fl : BitVec 13) (s : State) :
    exec (if pa = 1#1 then .hdr7 f c fl else .hdr9 f c fl) s = emitRow pa f c fl s := by
  obtain ⟨rfl, -⟩ | ⟨rfl, -⟩ := hdrSize_cases pa <;> rfl

/-- Settles O28: each lookup row is the lookup VALIDATE makes, and the header row appends what WRITE appends. -/
theorem writeIsItsRowsInSequence : Obligations.WriteIsItsRowsInSequence := by
  intro s v henc hroom
  have hv := canEncode_iff.1 henc
  obtain ⟨-, hsfi, hchc, -⟩ := henc
  refine ⟨?_, ?_, _, _, ?_, rfl, exec_write_of_room hv hroom⟩
  · simp only [exec_rateRow, lookupRate, hsfi]
  · simp only [exec_countRow, lookupCount, hchc]
  · rw [exec_headerRow, emitRow_of_emittable (emittable_of_validate hv), withRoom_next]
    exact ⟨roomFor_iff.1 hroom, rfl⟩

/-! ### Two checks -/

/-- Settles O40: the sum needs 33 bits, and a number reaches 2 to the 13 exactly when it has a bit there or above. -/
theorem tooLargeIsAHighBit : Obligations.TooLargeIsAHighBit := by
  intro pa l
  have hlt : frameLen pa l < 2 ^ 33 := by
    have := l.isLt
    obtain ⟨-, h⟩ | ⟨-, h⟩ := hdrSize_cases pa <;> (rw [frameLen, h]; omega)
  simp only [BitVec.getLsbD, BitVec.toNat_ofNat, Nat.mod_eq_of_lt hlt]
  refine ⟨fun hlong => ?_, fun ⟨i, hi, _, hbit⟩ => ?_⟩
  · obtain ⟨i, hi, hbit⟩ := Nat.exists_ge_and_testBit_of_ge_two_pow (n := 13) hlong
    have hi33 : i < 33 := (Nat.pow_lt_pow_iff_right (by decide)).1 ((Nat.ge_two_pow_of_testBit hbit).trans_lt hlt)
    exact ⟨i, hi, Nat.le_of_lt_succ hi33, hbit⟩
  · exact (Nat.pow_le_pow_right (by decide) hi).trans (Nat.ge_two_pow_of_testBit hbit)

theorem validate_of_no_payload {s : State} {f : BitVec 4} {c : BitVec 3} (hs : s.hvalid = true)
    (hf : sfi s.sRate = some f) (hc : chc s.chCnt = some c) (hlen : s.pLen = 0#32) : ∃ v, validate s = .ok v := by
  have hshort : frameLen s.crcAbs s.pLen ≤ 8191 := by
    rw [hlen]
    obtain ⟨-, h⟩ | ⟨-, h⟩ := hdrSize_cases s.crcAbs <;> simp [frameLen, h]
  exact ⟨⟨f, c, _⟩, validate_ok.2 ⟨hs, hf, hc, hshort, rfl⟩⟩

/-- Settles O39: a header without payload is never too long, so TOBYTES fails only where a lookup does. -/
theorem failFastCheck : Obligations.FailFastCheck := by
  intro s r c
  have hconstruct := exec_construct 1#1 r c 0#32 s
  by_cases hnone : sfi r = none ∨ chc c = none
  · have hv := validate_of_lookup_eq_none (s := ((s.setOperands 1#1 r c 0#32).setHvalid).respond .ok []) rfl hnone
    exact ⟨_, _, hconstruct, exec_toBytes_of_validate_error hv, rfl, iff_of_true rfl hnone⟩
  · obtain ⟨hsfi, hchc⟩ := not_or.1 hnone
    obtain ⟨f, hf⟩ := Option.ne_none_iff_exists'.1 hsfi
    obtain ⟨g, hg⟩ := Option.ne_none_iff_exists'.1 hchc
    obtain ⟨v, hv⟩ :=
      validate_of_no_payload (s := ((s.setOperands 1#1 r c 0#32).setHvalid).respond .ok []) rfl hf hg rfl
    exact ⟨_, _, hconstruct, exec_toBytes_of_validate_ok hv, rfl, iff_of_false (by simp) hnone⟩

end Sys2Proof.Machine

/-! SUPPORT. Frames of the instructions (R21, R42 to R44, R48, R51). -/

namespace Sys2Proof.Machine

/-- Settles O47: every instruction but CONSTRUCT only appends to the sink and hands back values. -/
theorem onlyConstructWritesRegisters : Obligations.OnlyConstructWritesRegisters := by
  intro i s t h hne
  obtain ⟨a, r, c, l, rfl, -⟩ | hadv := exec_next h
  · exact absurd rfl (hne a r c l)
  · exact sameRegisters_of_advances hadv

theorem exec_pending {i : Instr} {s t : State} (h : exec i s = .next t) : t.pending = s.pending := by
  obtain ⟨a, r, c, l, -, rfl⟩ | hadv := exec_next h
  · rfl
  · exact hadv.pending_eq

/-- Settles O48: a row of the tables or of the status codes hands back a value, and CONSTRUCT and TOBYTES leave the
sink. -/
theorem rowsThatStoreNothing : Obligations.RowsThatStoreNothing := by
  intro i s t h hi
  have hsink : t.sink = s.sink := by
    obtain hf | hf | hf | hreq := hi
    case inr.inr.inr => exact exec_sink_of_toBytes_or_construct hreq h
    all_goals
      obtain ⟨r, -, hgive⟩ := exec_gives_of_format (i := i) (by simp [hf])
      rw [hgive s] at h
      cases h
      rfl
  exact ⟨hsink, fun x => by rw [hsink], exec_pending h, onlyConstructWritesRegisters i s t h⟩

theorem sameMemOutside_of_sink_eq {s t : State} (h : t.sink = s.sink) (p n : Nat) : SameMemOutside p n s t :=
  fun _ _ => by rw [h]

/-- A storing row leaves the whole sink, or appends its `n` bytes and returns nothing. -/
def StoresOrLeaves (n : Nat) (s t : State) : Prop :=
  t.sink = s.sink ∨ t.returned = s.returned ∧ ∃ bs, bs.length = n ∧ t.sink = s.sink.append bs

theorem storesOrLeaves_withRoom {n : Nat} {bs : List Byte} {s t : State} (hlen : bs.length = n)
    (h : withRoom n s (s.sink.append bs) = .next t) : StoresOrLeaves n s t := by
  obtain ⟨-, rfl⟩ := withRoom_next.1 h
  exact .inr ⟨rfl, bs, hlen, rfl⟩

theorem storesOrLeaves_emitRow {pa : BitVec 1} {f : BitVec 4} {c : BitVec 3} {fl : BitVec 13} {s t : State}
    (h : emitRow pa f c fl s = .next t) : StoresOrLeaves (hdrSize pa) s t := by
  obtain ⟨-, -, rfl⟩ | ⟨-, rfl⟩ := emitRow_next h
  · exact .inr ⟨rfl, _, wordBytes_length pa f c fl, rfl⟩
  · exact .inl rfl

/-- Settles O50: the puts and the header rows store their bytes at the cursor or leave the sink, and nothing else is
touched by an instruction other than CONSTRUCT. -/
theorem storingRowsFrame : Obligations.StoringRowsFrame := by
  intro i n s t h hi
  have hstores : StoresOrLeaves n s t := by
    obtain ⟨v, rfl, rfl⟩ | ⟨v, rfl, rfl⟩ | ⟨v, rfl, rfl⟩ | ⟨f, c, fl, rfl, rfl⟩ | ⟨f, c, fl, rfl, rfl⟩ := hi
    · exact storesOrLeaves_withRoom (bigEndian_length 1 v) ((exec_putByte v s).symm.trans h)
    · exact storesOrLeaves_withRoom (bigEndian_length 2 v) ((exec_putShort v s).symm.trans h)
    · exact storesOrLeaves_withRoom (bigEndian_length 4 v) ((exec_putInt v s).symm.trans h)
    · exact storesOrLeaves_emitRow (pa := 1#1) h
    · exact storesOrLeaves_emitRow (pa := 0#1) h
  have hregs : SameRegisters s t := onlyConstructWritesRegisters i s t h (by rintro a r c l rfl; simp at hi)
  obtain hsink | ⟨hret, bs, hlen, hsink⟩ := hstores
  · exact ⟨sameMemOutside_of_sink_eq hsink _ _, by rw [hsink], hregs, exec_pending h, .inl hsink⟩
  · obtain ⟨-, hout, hpos, hlimit⟩ := append_frame hsink hlen
    exact ⟨hout, hlimit, hregs, exec_pending h, .inr ⟨hpos, hret⟩⟩

/-- Settles O51: bytes are only ever appended, at the cursor and above. -/
theorem earlierBytesAreNeverChanged : Obligations.EarlierBytesAreNeverChanged := by
  intro i s t h
  obtain ⟨a, r, c, l, -, rfl⟩ | ⟨bs, rs, rfl⟩ := exec_next h
  · exact ⟨fun _ _ => rfl, Nat.le_refl _, rfl⟩
  · exact ⟨fun _ hx => Mem.read_writeBytes_outside _ (.inl hx), Nat.le_add_right _ _, rfl⟩

end Sys2Proof.Machine

/-! SUPPORT. Steps: which move a step takes and what it does with it (R30, R47, R180, R186), and where it stops
(R159). -/

namespace Sys2Proof.Machine

/-! ### The step of each kind of move -/

theorem step_of_no_move {s : State} (hp : s.pending = []) : step s = .next s := by
  simp only [step, fetch, hp, idleStep]

theorem step_of_act {s : State} {a : HostAct} {rest : List HostMove} (hp : s.pending = .act a :: rest) :
    step s = hostAct a { s with pending := rest } := by
  simp only [step, fetch, hp]

theorem step_of_decode_error {s : State} {w : TableWord} {e : DecodeError} {rest : List HostMove}
    (hp : s.pending = .word w :: rest) (hd : decode w = .error e) : step s = .fault (.undecodable e) := by
  simp only [step, fetch, hp, hd]

/-- The bits of the opcode table that are read as an instruction stand for a word that decodes to it (log entry 16). -/
theorem exists_word_of_decodeTableWord {nbits w : Nat} {i : Instr} (h : decodeTableWord nbits w = some i) :
    ∃ x, tableWordOf nbits w = some x ∧ decode x = .ok i := by
  unfold decodeTableWord at h
  cases hx : tableWordOf nbits w with
  | none => simp [hx] at h
  | some x =>
    refine ⟨x, rfl, ?_⟩
    cases hd : decode x with
    | error e => simp [hx, hd, Except.toOption] at h
    | ok j => simpa [hx, hd, Except.toOption] using h

theorem step_withFetchWord {s : State} {nbits w : Nat} {i : Instr} (h : decodeTableWord nbits w = some i) :
    step (s.withFetchWord nbits w) = exec i s := by
  obtain ⟨x, hx, hd⟩ := exists_word_of_decodeTableWord h
  have hp : (s.withFetchWord nbits w).pending = .word x :: s.pending := by
    simp only [State.withFetchWord, queueWord, hx]
  exact step_of_decode hp hd

/-- Settles O54: a word is decoded, and then run or reported. -/
theorem stepRunsTheDecodedInstruction : Obligations.StepRunsTheDecodedInstruction :=
  ⟨fun _ _ _ _ => step_of_decode, fun _ _ _ _ => step_withFetchWord, fun _ _ _ _ => step_of_decode_error⟩

/-! ### Acts of the host -/

theorem hostAct_append_of_room {bs : List Byte} {s : State} (h : RoomFor bs.length s.sink) :
    hostAct (.append bs) s = .next (s.setSink (s.sink.append bs)) := by
  rw [hostAct, if_pos (roomFor_iff.1 h)]

theorem hostAct_poke_of_lt {x : Nat} {b : Byte} {s : State} (h : ∀ l, s.sink.limit = some l → x < l) :
    hostAct (.poke x b) s = .next (s.setSink { s.sink with mem := s.sink.mem.write x b }) := by
  have haddr : s.sink.hasAddr x = true := by
    unfold Sink.hasAddr
    split
    · rfl
    · next l hl => exact decide_eq_true (h l hl)
  rw [hostAct, if_pos haddr]

/-- Settles O55: the step is the act, and an append and a poke store at the addresses named. -/
theorem stepTakesHostActs : Obligations.StepTakesHostActs := by
  refine ⟨fun _ => step_of_no_move, fun _ _ hp => step_of_act hp, fun s rest bs hp hroom => ?_,
    fun s rest x b hp haddr => ?_, fun _ _ _ hp => step_of_act hp, fun _ _ _ hp => step_of_act hp⟩
  · have hact := hostAct_append_of_room (s := { s with pending := rest }) hroom
    obtain ⟨hbytes, hout, hpos, -⟩ :=
      append_frame (s := s) (t := { s with pending := rest, sink := s.sink.append bs }) rfl rfl
    exact ⟨_, (step_of_act hp).trans hact, hbytes, hout, hpos, rfl, rfl, rfl, rfl, rfl⟩
  · have hact := hostAct_poke_of_lt (b := b) (s := { s with pending := rest }) haddr
    refine ⟨_, (step_of_act hp).trans hact, Mem.read_write_same _ x b, fun y hy => ?_, rfl, rfl, rfl, rfl, rfl, rfl⟩
    exact Mem.read_write_other _ b (by omega)

/-- Settles O56: the fields of the reset state are the constants of the design. -/
theorem resetState : Obligations.ResetState := ⟨rfl, rfl, rfl, rfl, rfl, rfl, rfl, rfl, rfl, rfl⟩

/-! ### The moves still to come -/

theorem hostAct_pending {a : HostAct} {s t : State} (h : hostAct a s = .next t) : t.pending = s.pending := by
  obtain ⟨_, -, -, rfl⟩ | ⟨_, _, -, -, rfl⟩ | ⟨_, -, rfl⟩ | ⟨_, -, rfl⟩ | ⟨-, rfl⟩ := hostAct_next h
  case inr.inr.inr.inr => exact resetBlock_pending s
  all_goals exact State.setSink_pending s _

theorem step_pending {s t : State} (h : step s = .next t) : t.pending = s.pending.tail := by
  obtain ⟨hp, rfl⟩ | ⟨a, rest, hp, ha⟩ | ⟨w, i, rest, hp, -, hi⟩ := step_next h
  · rw [hp, List.tail_nil]
  · rw [hostAct_pending ha, hp, List.tail_cons]
  · rw [exec_pending hi, hp, List.tail_cons]

/-- Settles O59: the moves left are some of the old ones. -/
theorem stepsAddNoMoves : Obligations.StepsAddNoMoves := by
  intro s t h
  have hp := step_pending h
  exact ⟨fun honly m hm => honly m (List.mem_of_mem_tail (hp ▸ hm)), hp⟩

/-! ### Stops -/

/-- A request word decodes to a request or to the reserved code (R68). -/
theorem decode_of_format_req99 {w : TableWord} (h : w.format = .req99) :
    ∃ i, decode w = .ok i ∧ i.format = .req99 := by
  cases w with
  | req99 r =>
    refine ⟨decodeRequest r, rfl, ?_⟩
    unfold decodeRequest
    split <;> rfl
  | _ => cases h

theorem exec_toBytes_completes (s : State) : Completes (exec .toBytes s) := by
  cases hv : validate s with
  | error st => exact ⟨_, exec_toBytes_of_validate_error hv⟩
  | ok v => exact ⟨_, exec_toBytes_of_validate_ok hv⟩

theorem exec_write_cases (s : State) :
    Completes (exec .write s) ∨ exec .write s = .refused .sinkNoRoom ∧ (∃ v, CanEncode s v)
      ∧ ¬ RoomFor (hdrSize s.crcAbs) s.sink := by
  cases hv : validate s with
  | error st => exact .inl ⟨_, exec_write_of_validate_error hv⟩
  | ok v =>
    by_cases hroom : RoomFor (hdrSize s.crcAbs) s.sink
    · exact .inl ⟨_, exec_write_of_room hv hroom⟩
    · exact .inr ⟨by rw [exec_write_of_validate_ok hv, if_neg (mt roomFor_iff.2 hroom)], ⟨v, canEncode_iff.2 hv⟩, hroom⟩

/-- A request has a next state but for the reserved code and a WRITE of an encodable header without room (R159). -/
theorem exec_request_cases {i : Instr} (h : i.format = .req99) (s : State) :
    Completes (exec i s)
    ∨ ∃ r, exec i s = .refused r ∧ (i = .reservedOp ∧ r = .reservedOp
      ∨ i = .write ∧ r = .sinkNoRoom ∧ (∃ v, CanEncode s v) ∧ ¬ RoomFor (hdrSize s.crcAbs) s.sink) := by
  obtain ⟨a, r, c, l, rfl⟩ | rfl | rfl | rfl := request_cases h
  · exact .inl ⟨_, exec_construct a r c l s⟩
  · obtain hnext | ⟨href, hstop⟩ := exec_write_cases s
    · exact .inl hnext
    · exact .inr ⟨_, href, .inr ⟨rfl, rfl, hstop⟩⟩
  · exact .inl (exec_toBytes_completes s)
  · exact .inr ⟨_, exec_reservedOp s, .inl ⟨rfl, rfl⟩⟩

/-- An act of the host has a next state or is outside the sink (R40, log entry 18). -/
theorem hostAct_cases (a : HostAct) (s : State) : Completes (hostAct a s) ∨ hostAct a s = .fault .hostOutsideSink := by
  cases a with
  | append bs =>
    by_cases hroom : s.sink.hasRoom bs.length = true
    · exact .inl ⟨_, if_pos hroom⟩
    · exact .inr (if_neg hroom)
  | poke x b =>
    by_cases haddr : s.sink.hasAddr x = true
    · exact .inl ⟨_, if_pos haddr⟩
    · exact .inr (if_neg haddr)
  | seek p => exact .inl ⟨_, rfl⟩
  | freshSink l => exact .inl ⟨_, rfl⟩
  | reset => exact .inl ⟨_, rfl⟩

/-- With requests and acts of the host alone to come, a step completes, is refused a request, or faults at an act. -/
theorem step_cases_of_requestsOnly {s : State} (h : RequestsOnly s) :
    Completes (step s)
    ∨ (step s = .fault .hostOutsideSink ∧ ∃ a rest, s.pending = .act a :: rest)
    ∨ ∃ r w rest, step s = .refused r ∧ s.pending = .word w :: rest
      ∧ (decode w = .ok .reservedOp ∧ r = .reservedOp
        ∨ decode w = .ok .write ∧ r = .sinkNoRoom ∧ (∃ v, CanEncode s v) ∧ ¬ RoomFor (hdrSize s.crcAbs) s.sink) := by
  cases hp : s.pending with
  | nil => exact .inl ⟨s, step_of_no_move hp⟩
  | cons m rest =>
    cases m with
    | act a =>
      rw [step_of_act hp]
      obtain hnext | hfault := hostAct_cases a { s with pending := rest }
      · exact .inl hnext
      · exact .inr (.inl ⟨hfault, a, rest, rfl⟩)
    | word w =>
      have hreal : realMove (.word w) = true := h _ (hp ▸ List.mem_cons_self)
      obtain ⟨i, hd, hformat⟩ := decode_of_format_req99 (of_decide_eq_true hreal)
      rw [step_of_decode hp hd]
      obtain hnext | ⟨r, href, hstop⟩ := exec_request_cases hformat { s with pending := rest }
      · exact .inl hnext
      · refine .inr (.inr ⟨r, w, rest, href, rfl, ?_⟩)
        obtain ⟨rfl, rfl⟩ | ⟨rfl, rfl, hwrite⟩ := hstop
        · exact .inl ⟨hd, rfl⟩
        · exact .inr ⟨hd, rfl, hwrite⟩

/-- Settles O38: a refused step is one of a request, and a fault is one of an act. -/
theorem onlyTwoRequestsAreRefused : Obligations.OnlyTwoRequestsAreRefused := by
  intro s honly
  obtain ⟨t, hnext⟩ | ⟨hfault, hact⟩ | ⟨r, w, rest, href, hp, hstop⟩ := step_cases_of_requestsOnly honly
  · simp [hnext]
  · refine ⟨fun r hr => ?_, fun e he => ⟨?_, hact⟩⟩
    · simp [hfault] at hr
    · simpa [hfault, eq_comm] using he
  · refine ⟨fun r' hr => ⟨w, rest, hp, ?_⟩, fun e he => ?_⟩
    · obtain rfl : r = r' := by simpa [href] using hr
      exact hstop
    · simp [href] at he

end Sys2Proof.Machine
